-- ==== Sys2Proof/Word.lean ====
section
/-! DEFINITION. The widths of the core: Modbus bytes, 16-bit fields and 32-bit host registers
(00_scope.md R8, R9). All values are unsigned (R10). -/

namespace Sys2Proof

/-- A Modbus byte (00_scope.md R8). -/
abbrev Byte := BitVec 8

/-- A 16-bit field: register or coil address, write value, quantity, CRC (00_scope.md R8). -/
abbrev Half := BitVec 16

/-- A host register (00_scope.md R9). -/
abbrev Word := BitVec 32

end Sys2Proof
end

