-- ==== Sys2Proof/Syntax.lean ====
section
/-! DEFINITION. The instructions: one constructor per row of the opcode table. A host command is a
word written to CMD (30_encoding.md R80, R81). A request PDU, a response PDU and an exception PDU are
wire PDUs (R84 to R86, R88 to R91), with the fields the table gives the row. -/

namespace Sys2Proof

/-- The opcode table's rows. Host commands carry no operand (30_encoding.md R80): their operands are
the configuration registers. -/
inductive Instr where
  /-- EXEC_RC, CODE 0x01 (43_transaction.md R230). -/
  | execRc
  /-- EXEC_RHR, CODE 0x03 (43_transaction.md R231). -/
  | execRhr
  /-- EXEC_WSC, CODE 0x05 (43_transaction.md R232). -/
  | execWsc
  /-- EXEC_WSR, CODE 0x06 (43_transaction.md R233). -/
  | execWsr
  /-- CRC_INIT, CODE 0x40 (40_crc.md R114). -/
  | crcInit
  /-- CRC_FEED, CODE 0x41 (40_crc.md R115). -/
  | crcFeed
  /-- REQ_READ_COILS (30_encoding.md R84; 42_pdu_codec.md R151). -/
  | reqReadCoils (addr quantity : Half)
  /-- REQ_READ_HOLDING_REGISTERS (30_encoding.md R84; 42_pdu_codec.md R152). -/
  | reqReadHolding (addr quantity : Half)
  /-- REQ_WRITE_SINGLE_COIL (30_encoding.md R86; 42_pdu_codec.md R154). -/
  | reqWriteCoil (addr coilWord : Half)
  /-- REQ_WRITE_SINGLE_REGISTER (30_encoding.md R85; 42_pdu_codec.md R155). -/
  | reqWriteRegister (addr value : Half)
  /-- RSP_READ_COILS (30_encoding.md R89; 42_pdu_codec.md R164). -/
  | rspReadCoils (byteCount data : Byte)
  /-- RSP_READ_HOLDING_REGISTERS (30_encoding.md R88; 42_pdu_codec.md R163). -/
  | rspReadHolding (byteCount : Byte) (value : Half)
  /-- RSP_WRITE_SINGLE_COIL (30_encoding.md R90; 42_pdu_codec.md R166). -/
  | rspWriteCoil (addr coilWord : Half)
  /-- RSP_WRITE_SINGLE_REGISTER (30_encoding.md R90; 42_pdu_codec.md R165). -/
  | rspWriteRegister (addr value : Half)
  /-- EXC_READ_COILS, 0x81 (30_encoding.md R91; 42_pdu_codec.md R161). -/
  | excReadCoils (code : Byte)
  /-- EXC_READ_HOLDING_REGISTERS, 0x83 (30_encoding.md R91; 42_pdu_codec.md R161). -/
  | excReadHolding (code : Byte)
  /-- EXC_WRITE_SINGLE_COIL, 0x85 (30_encoding.md R91; 42_pdu_codec.md R161). -/
  | excWriteCoil (code : Byte)
  /-- EXC_WRITE_SINGLE_REGISTER, 0x86 (30_encoding.md R91; 42_pdu_codec.md R161). -/
  | excWriteRegister (code : Byte)
deriving DecidableEq, Repr, Inhabited

end Sys2Proof
end

