-- ==== Sys2Proof/WellFormed.lean ====
section
/-! DEFINITION. Which instructions are well formed. The only operands the spec restricts are those of
the requests this core builds: the quantity is fixed at 1 (30_encoding.md R84) and the coil word is
0xFF00 or 0x0000 (R86). What arrives on the wire is unrestricted: every byte count, echo and
exception code is a legal PDU that the core classifies (R97, R98). -/

namespace Sys2Proof

/-- The quantity of a read request, "fixed 1 here" (30_encoding.md R84). -/
def quantityOne (q : Half) : Bool := q == 0x0001

/-- The coil word of a write request: ON or OFF (30_encoding.md R86). -/
def legalCoilWord (cw : Half) : Bool := cw == 0xFF00 || cw == 0x0000

/-- The checks on an instruction's operands. -/
def Instr.wellFormed : Instr → Bool
  | .execRc | .execRhr | .execWsc | .execWsr => true
  | .crcInit | .crcFeed => true
  | .reqReadCoils _ q => quantityOne q
  | .reqReadHolding _ q => quantityOne q
  | .reqWriteCoil _ cw => legalCoilWord cw
  | .reqWriteRegister _ _ => true
  | .rspReadCoils _ _ | .rspReadHolding _ _ | .rspWriteCoil _ _ | .rspWriteRegister _ _ => true
  | .excReadCoils _ | .excReadHolding _ | .excWriteCoil _ | .excWriteRegister _ => true

end Sys2Proof
end

