-- ==== Sys2Proof/Decode.lean ====
section
/-! DEFINITION. Decoding and encoding (30_encoding.md). The formats share leading bytes (0x01 is a
command, a request and a response), and the spec tells them apart by where the bytes stand: in CMD
(R80), in the frame the core sends (R84 to R87), in the frame it receives (R88 to R91). So the decoder
takes the port the bytes stand at. It is total and rejects by name. -/

namespace Sys2Proof

/-! ### Byte order (20_memory.md R70 to R72) -/

/-- `be16(v)`: the 16-bit PDU fields, most significant byte first (00_scope.md R11; 20_memory.md R70). -/
def be16 (v : Half) : List Byte := [v.extractLsb' 8 8, v.extractLsb' 0 8]

/-- `le16(v)`: the CRC, least significant byte first (00_scope.md R11; 20_memory.md R71). -/
def le16 (v : Half) : List Byte := [v.extractLsb' 0 8, v.extractLsb' 8 8]

/-- `hi << 8 | lo` (30_encoding.md R99). -/
def half (hi lo : Byte) : Half := hi ++ lo

/-- The four bytes of a host word, bits [7:0] first: bit 0 of the first byte is bit 0 of the word. -/
def wordBytes (v : Word) : List Byte :=
  [v.extractLsb' 0 8, v.extractLsb' 8 8, v.extractLsb' 16 8, v.extractLsb' 24 8]

/-! ### Ports, function codes and rejections -/

/-- Where an instruction's bytes stand. -/
inductive Port where
  /-- A word written to CMD (30_encoding.md R80). -/
  | command
  /-- The PDU of a frame the core sends (30_encoding.md R84 to R86). -/
  | request
  /-- The PDU of a frame the core receives (30_encoding.md R88 to R91). -/
  | response
deriving DecidableEq, Repr

/-- Why bytes are no instruction at a port. -/
inductive Reject where
  /-- A CMD code outside the six (30_encoding.md R82). -/
  | illegalCommand
  /-- A first PDU byte that is no function code, or no function or exception function code (R83, R98). -/
  | unknownFunction
  /-- A number of bytes that is not the format's (R80, R84 to R86, R88 to R91). -/
  | wrongLength
  /-- A read request whose quantity is not 1 (R84). -/
  | badQuantity
  /-- A coil write request whose coil word is neither 0xFF00 nor 0x0000 (R86). -/
  | badCoilWord
deriving DecidableEq, Repr

/-- The closed enumeration of function codes (30_encoding.md R83). -/
inductive FunctionCode where
  | readCoils
  | readHolding
  | writeCoil
  | writeRegister
deriving DecidableEq, Repr, Inhabited

/-- A function code's byte (30_encoding.md R83). -/
def FunctionCode.code : FunctionCode → Byte
  | .readCoils => 0x01
  | .readHolding => 0x03
  | .writeCoil => 0x05
  | .writeRegister => 0x06

/-- The function code a byte stands for, if any (30_encoding.md R83). -/
def FunctionCode.ofByte (b : Byte) : Option FunctionCode :=
  if b = 0x01 then some .readCoils
  else if b = 0x03 then some .readHolding
  else if b = 0x05 then some .writeCoil
  else if b = 0x06 then some .writeRegister
  else none

/-- `fc | 0x80`, the exception function code (30_encoding.md R83, R91). -/
def exceptionOf (fc : Byte) : Byte := fc ||| 0x80

/-! ### The decoder -/

/-- The command whose CODE is `c` (30_encoding.md R81, R82). -/
def decodeCode (c : Byte) : Except Reject Instr :=
  if c = 0x01 then .ok .execRc
  else if c = 0x03 then .ok .execRhr
  else if c = 0x05 then .ok .execWsc
  else if c = 0x06 then .ok .execWsr
  else if c = 0x40 then .ok .crcInit
  else if c = 0x41 then .ok .crcFeed
  else .error .illegalCommand

/-- A CMD word: CODE is bits [7:0], bits [31:8] are ignored (30_encoding.md R80). -/
def decodeCommand : List Byte → Except Reject Instr
  | [c, _, _, _] => decodeCode c
  | _ => .error .wrongLength

/-- A request PDU's two 16-bit operands, after the function code (30_encoding.md R84 to R86). -/
def decodeOperands (mk : Half → Half → Except Reject Instr) : List Byte → Except Reject Instr
  | [a1, a0, v1, v0] => mk (half a1 a0) (half v1 v0)
  | _ => .error .wrongLength

/-- The byte count and data byte of a ReadCoils response (30_encoding.md R89). -/
def decodeCoilData : List Byte → Except Reject Instr
  | [bc, d] => .ok (.rspReadCoils bc d)
  | _ => .error .wrongLength

/-- The byte count and register value of a ReadHoldingRegisters response (30_encoding.md R88). -/
def decodeRegisterData : List Byte → Except Reject Instr
  | [bc, hi, lo] => .ok (.rspReadHolding bc (half hi lo))
  | _ => .error .wrongLength

/-- The exception code of an exception response (30_encoding.md R91). -/
def decodeException (mk : Byte → Instr) : List Byte → Except Reject Instr
  | [x] => .ok (mk x)
  | _ => .error .wrongLength

/-- A request PDU (30_encoding.md R84 to R86). -/
def decodeRequest : List Byte → Except Reject Instr
  | [] => .error .wrongLength
  | fc :: rest =>
    if fc = 0x01 then
      decodeOperands (fun a q => if quantityOne q then .ok (.reqReadCoils a q) else .error .badQuantity) rest
    else if fc = 0x03 then
      decodeOperands (fun a q => if quantityOne q then .ok (.reqReadHolding a q) else .error .badQuantity) rest
    else if fc = 0x05 then
      decodeOperands (fun a cw =>
        if legalCoilWord cw then .ok (.reqWriteCoil a cw) else .error .badCoilWord) rest
    else if fc = 0x06 then
      decodeOperands (fun a v => .ok (.reqWriteRegister a v)) rest
    else .error .unknownFunction

/-- A response PDU, normal or exception (30_encoding.md R88 to R91). -/
def decodePdu : List Byte → Except Reject Instr
  | [] => .error .wrongLength
  | fc :: rest =>
    if fc = 0x01 then decodeCoilData rest
    else if fc = 0x03 then decodeRegisterData rest
    else if fc = 0x05 then decodeOperands (fun a cw => .ok (.rspWriteCoil a cw)) rest
    else if fc = 0x06 then decodeOperands (fun a v => .ok (.rspWriteRegister a v)) rest
    else if fc = 0x81 then decodeException .excReadCoils rest
    else if fc = 0x83 then decodeException .excReadHolding rest
    else if fc = 0x85 then decodeException .excWriteCoil rest
    else if fc = 0x86 then decodeException .excWriteRegister rest
    else .error .unknownFunction

/-- The instruction that bytes at a port stand for, or the reason they stand for none. -/
def decode : Port → List Byte → Except Reject Instr
  | .command => decodeCommand
  | .request => decodeRequest
  | .response => decodePdu

/-! ### The encoder, from the same tables of 30_encoding.md -/

/-- The port an instruction belongs to: the opcode table's `format`. -/
def Instr.port : Instr → Port
  | .execRc | .execRhr | .execWsc | .execWsr | .crcInit | .crcFeed => .command
  | .reqReadCoils _ _ | .reqReadHolding _ _ | .reqWriteCoil _ _ | .reqWriteRegister _ _ => .request
  | .rspReadCoils _ _ | .rspReadHolding _ _ | .rspWriteCoil _ _ | .rspWriteRegister _ _ => .response
  | .excReadCoils _ | .excReadHolding _ | .excWriteCoil _ | .excWriteRegister _ => .response

/-- The bytes of an instruction: a CMD word with the ignored bits zero (R80, R81), or a PDU (R84 to R91). -/
def encode : Instr → List Byte
  | .execRc => [0x01, 0x00, 0x00, 0x00]
  | .execRhr => [0x03, 0x00, 0x00, 0x00]
  | .execWsc => [0x05, 0x00, 0x00, 0x00]
  | .execWsr => [0x06, 0x00, 0x00, 0x00]
  | .crcInit => [0x40, 0x00, 0x00, 0x00]
  | .crcFeed => [0x41, 0x00, 0x00, 0x00]
  | .reqReadCoils a q => 0x01 :: (be16 a ++ be16 q)
  | .reqReadHolding a q => 0x03 :: (be16 a ++ be16 q)
  | .reqWriteCoil a cw => 0x05 :: (be16 a ++ be16 cw)
  | .reqWriteRegister a v => 0x06 :: (be16 a ++ be16 v)
  | .rspReadCoils bc d => [0x01, bc, d]
  | .rspReadHolding bc v => 0x03 :: bc :: be16 v
  | .rspWriteCoil a cw => 0x05 :: (be16 a ++ be16 cw)
  | .rspWriteRegister a v => 0x06 :: (be16 a ++ be16 v)
  | .excReadCoils x => [0x81, x]
  | .excReadHolding x => [0x83, x]
  | .excWriteCoil x => [0x85, x]
  | .excWriteRegister x => [0x86, x]

/-! ### Words numbered as the opcode table numbers them -/

/-- The first `n` bytes of the number `w`, bits 7..0 first. -/
def natBytes : Nat → Nat → List Byte
  | 0, _ => []
  | n + 1, w => BitVec.ofNat 8 w :: natBytes n (w / 256)

/-- How many bytes the response PDU with this first byte has (30_encoding.md R93); 1 for a byte that
begins none, which the decoder then rejects. -/
def pduLength (fc : Byte) : Nat :=
  if fc = 0x01 then 3
  else if fc = 0x03 then 4
  else if fc = 0x05 then 5
  else if fc = 0x06 then 5
  else if fc = 0x81 then 2
  else if fc = 0x83 then 2
  else if fc = 0x85 then 2
  else if fc = 0x86 then 2
  else 1

/-- The bytes of a table word read as a response PDU. -/
def tablePdu (nbits w : Nat) : List Byte :=
  natBytes (pduLength (BitVec.ofNat 8 (w % 2 ^ nbits))) (w % 2 ^ nbits)

/-- The bytes of a table word read as a CMD word. -/
def tableCommand (nbits w : Nat) : List Byte := natBytes 4 (w % 2 ^ nbits)

/-- The instruction the decoder reads from a table word. The table gives three rows the same leading
byte, one per port, and a word names no port: the word is read at CMD, the one port at which the host
gives the core instructions, and, where CMD has no such code, at the response port
(DESIGN CHOICE, log entry 6). -/
def decodeTableWord (nbits w : Nat) : Option Instr :=
  match decode .command (tableCommand nbits w) with
  | .ok i => some i
  | .error _ =>
    match decode .response (tablePdu nbits w) with
    | .ok i => some i
    | .error _ => none

end Sys2Proof
end

