-- ==== Sys2Proof/Machine/Interface.lean ====
section
/-! DEFINITION. The core's two interfaces: the host register interface (20_memory.md R63 to R65) and
the serial byte-stream interface (R66), with the reset input (70_reset_and_hazards.md R270). -/

namespace Sys2Proof.Machine

/-- What a host access does. -/
inductive HostOp where
  | read
  | write (v : Word)
deriving DecidableEq, Repr, Inhabited

/-- One host access. Accesses whose width is not 32 bits or whose offset is no multiple of 4 can be
written down too, so that the model can refuse them (20_memory.md R65). -/
structure HostAccess where
  /-- the width in bits -/
  bits : Nat
  /-- the byte offset (20_memory.md R60) -/
  off : Byte
  op : HostOp
deriving DecidableEq, Repr, Inhabited

/-- The inputs of one tick: the arguments of `Tick` (43_transaction.md R180). A list of host accesses,
so that a tick with two can be written down and refused (93_implementation_defined.md I4). -/
structure TickInput where
  rst : Bool
  host : List HostAccess
  /-- `RxByte`: the byte delivered this tick, or none (20_memory.md R66, R68) -/
  rx : Option Byte
  txReady : Bool
  ioErr : Bool
deriving DecidableEq, Repr, Inhabited

/-- The outputs of one tick (20_memory.md R66; 43_transaction.md R181), and the word a HostRead of that
tick returned (20_memory.md R63). -/
structure TickOutput where
  txValid : Bool
  txData : Byte
  done : Bool
  readData : Option Word
deriving DecidableEq, Repr, Inhabited

/-- Outputs all low and no read: what a reset tick shows (70_reset_and_hazards.md R270). -/
def TickOutput.low : TickOutput := ⟨false, 0x00, false, none⟩

end Sys2Proof.Machine
end

