-- ==== Sys2Proof/Config.lean ====
section
/-! DEFINITION. The model's parameters and free values. None has a body: a claim holds for every value. -/

namespace Sys2Proof

/-- `P_TIMEOUT_RESET`, the OPEN reset value of TIMEOUT (00_scope.md R9; 10_state.md R31; log entry 4). -/
opaque Config.pTimeoutReset : Word

/-- `P_SILENCE_RESET`, the OPEN reset value of SILENCE (00_scope.md R9; 10_state.md R32; log entry 4). -/
opaque Config.pSilenceReset : Word

/-- The inputs of a tick that no listed input covers: the host, the transport and `rst` are free in
every tick (00_scope.md R14; 93_implementation_defined.md I7 to I9; log entry 1). -/
opaque Config.freeInput : Nat → Machine.TickInput

end Sys2Proof
end

