-- ==== Sys2Proof/Machine/State.lean ====
section
/-! DEFINITION. The state of the core, whole (10_state.md R20), its reset value (R58), and the reasons
a step can stop. -/

namespace Sys2Proof.Machine

/-- The sequencer's six states (10_state.md R21). Encodings 6 and 7 are never held, and this type has
no such value. -/
inductive SeqState where
  | idle
  | silence
  | sent
  | await
  | completed
  | failed
deriving DecidableEq, Repr, Inhabited

/-- The result codes (60_exceptions.md R241). Codes 10 to 15 are never produced. -/
inductive ResultCode where
  | none
  | ok
  | timeout
  | addressMismatch
  | deviceException
  | unexpectedFunction
  | echoMismatch
  | byteCountMismatch
  | ioError
  | argError
deriving DecidableEq, Repr, Inhabited

/-- RESULT.OUTCOME (10_state.md R33, R34). -/
inductive OutcomeKind where
  | none
  | value
  | bit
  | ack
deriving DecidableEq, Repr, Inhabited

/-- RESULT.EXCKIND (10_state.md R33; 42_pdu_codec.md R162). Values 6 and 7 are never held. -/
inductive ExcKind where
  | none
  | illegalFunction
  | illegalDataAddress
  | illegalDataValue
  | slaveDeviceFailure
  | unknown
deriving DecidableEq, Repr, Inhabited

/-- Why an attempt failed (43_transaction.md R221). -/
inductive Cause where
  | deadline
  | crc
deriving DecidableEq, Repr, Inhabited

/-- An 8-byte frame buffer (10_state.md R20, R38, R39). -/
structure Buffer where
  b0 : Byte
  b1 : Byte
  b2 : Byte
  b3 : Byte
  b4 : Byte
  b5 : Byte
  b6 : Byte
  b7 : Byte
deriving DecidableEq, Repr, Inhabited

/-- A buffer of zero bytes. -/
def Buffer.zero : Buffer := ⟨0x00, 0x00, 0x00, 0x00, 0x00, 0x00, 0x00, 0x00⟩

/-- The latched Request (10_state.md R43; 43_transaction.md R187). -/
structure Request where
  slave : Byte
  /-- 8 bits: one of the four function codes once a command was accepted, 0 after reset -/
  fc : Byte
  addr : Half
  value : Half
  retry : BitVec 4
  timeout : Word
  silence : Word
deriving DecidableEq, Repr, Inhabited

/-- The fields of RESULT (10_state.md R33). -/
structure Result where
  code : ResultCode
  outcome : OutcomeKind
  lastCrc : Bool
  excKind : ExcKind
  excCode : Byte
deriving DecidableEq, Repr, Inhabited

/-- RESULT = 0: CODE NONE and every other field 0 (10_state.md R33). -/
def Result.cleared : Result := ⟨.none, .none, false, .none, 0x00⟩

/-- Every Request field 0 (10_state.md R58). -/
def Request.zero : Request := ⟨0x00, 0x00, 0x0000, 0x0000, 0x0, 0x00000000, 0x00000000⟩

/-- The complete state of the core (10_state.md R20), and the model's own fields `inputs`, `ticks` and
`out` (log entries 1 to 3). -/
structure State where
  /-- the sequencer state (R21) -/
  state : SeqState
  /-- SLAVE (R27) -/
  slave : Byte
  /-- REGADDR (R28) -/
  regAddr : Half
  /-- VALUE (R29) -/
  value : Half
  /-- RETRY (R30) -/
  retry : BitVec 4
  /-- TIMEOUT (R31) -/
  timeout : Word
  /-- SILENCE (R32) -/
  silence : Word
  /-- STATUS.ILLCMD, sticky (R26) -/
  illCmd : Bool
  /-- STATUS.CMDOVR, sticky (R26) -/
  cmdOvr : Bool
  /-- RESULT (R33) -/
  res : Result
  /-- DATA_OUT (R35) -/
  dataOut : Half
  /-- ATTEMPTS (R36) -/
  attempts : BitVec 5
  /-- the request frame (R38) -/
  txBuf : Buffer
  /-- index of the next byte to transmit (R44) -/
  txIdx : BitVec 4
  /-- the bytes received in the current or last attempt (R39) -/
  rxBuf : Buffer
  /-- RXLEN (R37) -/
  rxLen : BitVec 4
  /-- ticks spent in AWAIT in the current attempt (R44) -/
  timer : Word
  /-- ticks since the last byte activity on the line, saturating (R44) -/
  idle : Word
  /-- the latched Request (R43) -/
  req : Request
  /-- CRC_VAL (R41) -/
  crc : Half
  /-- CRC_IN (R40) -/
  crcIn : Byte
  /-- the model's: the inputs of the coming ticks (log entry 1) -/
  inputs : List TickInput
  /-- the model's: how many ticks have run (log entry 3) -/
  ticks : Nat
  /-- the model's: the outputs of the last tick (log entry 2) -/
  out : TickOutput
deriving DecidableEq, Repr

/-- The state after reset (10_state.md R58; 70_reset_and_hazards.md R271). -/
def State.reset : State where
  state := .idle
  slave := 0x00
  regAddr := 0x0000
  value := 0x0000
  retry := 0x0
  timeout := Config.pTimeoutReset
  silence := Config.pSilenceReset
  illCmd := false
  cmdOvr := false
  res := Result.cleared
  dataOut := 0x0000
  attempts := 0
  txBuf := Buffer.zero
  txIdx := 0
  rxBuf := Buffer.zero
  rxLen := 0
  timer := 0x00000000
  idle := 0x00000000
  req := Request.zero
  crc := 0xFFFF
  crcIn := 0x00
  inputs := []
  ticks := 0
  out := TickOutput.low

/-- The reasons a step stops with a fault: none. "No condition of the core is a trap"
(60_exceptions.md R240), and no condition stops the model with an error (93_implementation_defined.md). -/
inductive Fault where
deriving DecidableEq, Repr

/-- The reasons a step is refused. -/
inductive Refusal where
  /-- An instruction that has no meaning in the model. Raised by no arm of `exec`. Safe: the run stops. -/
  | notModelled (mnemonic : String)
  /-- A host access that is not 32 bits wide or not at a multiple of 4, which "has no defined effect: the
  model refuses it" (20_memory.md R65). Raised by `tick`. Safe: the run stops. -/
  | undefinedHostAccess
  /-- More than one host access in a tick (20_memory.md R65; 93_implementation_defined.md I4). Raised by
  `tick`. Safe: the run stops. -/
  | severalHostAccesses
deriving DecidableEq, Repr


end Sys2Proof.Machine
end

