-- ==== Sys2Proof/Machine/Operands.lean ====
section
/-! DEFINITION. Operand assembly (30_encoding.md R99; 42_pdu_codec.md R153, R156), the lengths of
frames (30_encoding.md R93, R94), and the bytes of the frame buffers (10_state.md R38, R39). -/

namespace Sys2Proof.Machine

/-! ### Request operands -/

/-- The quantity of every read request (30_encoding.md R84, R99). -/
def quantity : Half := 0x0001

/-- `CoilWord(v)`: ON for an odd value, OFF for an even one (42_pdu_codec.md R153). -/
def coilWord (v : Half) : Half := if v.getLsbD 0 then 0xFF00 else 0x0000

/-- `WireValue(r)`: what a request carries after the address and what an echo is compared with
(42_pdu_codec.md R156). -/
def wireValue (c : FunctionCode) (value : Half) : Half :=
  match c with
  | .readCoils => quantity
  | .readHolding => quantity
  | .writeCoil => coilWord value
  | .writeRegister => value

/-! ### Frame lengths -/

/-- `NormLen(fc)` (30_encoding.md R93). -/
def normLen : FunctionCode → Nat
  | .readCoils => 6
  | .readHolding => 7
  | .writeCoil => 8
  | .writeRegister => 8

/-- The length of an exception response frame (30_encoding.md R93). -/
def exceptionLen : Nat := 5

/-- `ExpectedLen(fc, rxbuf, rxlen)`, defined only when `rxlen ≥ 2`, from `first`, the first PDU byte
(30_encoding.md R94). No length for an `fc` that is none of the four: the spec gives none and no run
reaches it (log entry 10). -/
def expectedLen (fc first : Byte) : Option Nat :=
  match FunctionCode.ofByte fc with
  | some c => some (if first = exceptionOf fc then exceptionLen else normLen c)
  | none => none

/-! ### Frame buffers -/

/-- Byte `i` of a buffer; every index the core uses is below 8 (log entry 11). -/
def Buffer.get (b : Buffer) (i : Nat) : Byte :=
  match i with
  | 0 => b.b0
  | 1 => b.b1
  | 2 => b.b2
  | 3 => b.b3
  | 4 => b.b4
  | 5 => b.b5
  | 6 => b.b6
  | 7 => b.b7
  | _ => 0x00

/-- The buffer with byte `i` replaced. -/
def Buffer.set (b : Buffer) (i : Nat) (v : Byte) : Buffer :=
  match i with
  | 0 => { b with b0 := v }
  | 1 => { b with b1 := v }
  | 2 => { b with b2 := v }
  | 3 => { b with b3 := v }
  | 4 => { b with b4 := v }
  | 5 => { b with b5 := v }
  | 6 => { b with b6 := v }
  | 7 => { b with b7 := v }
  | _ => b

/-- The buffer's bytes in order. -/
def Buffer.toList (b : Buffer) : List Byte := [b.b0, b.b1, b.b2, b.b3, b.b4, b.b5, b.b6, b.b7]

/-- The buffer that holds a byte sequence from index 0 on, zero after it. -/
def Buffer.ofList (m : List Byte) : Buffer :=
  ⟨m.getD 0 0x00, m.getD 1 0x00, m.getD 2 0x00, m.getD 3 0x00,
   m.getD 4 0x00, m.getD 5 0x00, m.getD 6 0x00, m.getD 7 0x00⟩

/-- Bytes 0 to 3 packed little-endian (10_state.md R38; 20_memory.md R72). -/
def Buffer.word0 (b : Buffer) : Word := b.b3 ++ b.b2 ++ b.b1 ++ b.b0

/-- Bytes 4 to 7 packed little-endian (10_state.md R38; 20_memory.md R72). -/
def Buffer.word1 (b : Buffer) : Word := b.b7 ++ b.b6 ++ b.b5 ++ b.b4

/-- `b[0 .. n]`: the first `n` bytes. -/
def Buffer.first (b : Buffer) (n : Nat) : List Byte := b.toList.take n

end Sys2Proof.Machine
end

