-- ==== Sys2Proof/Machine/Flags.lean ====
section
/-! DEFINITION. Every flag and packed register: BUSY and DONE (10_state.md R23), STATUS (R26), RESULT
(R33), the output signals (R47), and the read side of the host register map (R24). -/

namespace Sys2Proof.Machine

/-! ### Encodings of the named values -/

/-- STATUS.STATE (10_state.md R21). -/
def SeqState.bits : SeqState → BitVec 3
  | .idle => 0
  | .silence => 1
  | .sent => 2
  | .await => 3
  | .completed => 4
  | .failed => 5

/-- RESULT.CODE (60_exceptions.md R241). -/
def ResultCode.bits : ResultCode → BitVec 4
  | .none => 0
  | .ok => 1
  | .timeout => 2
  | .addressMismatch => 3
  | .deviceException => 4
  | .unexpectedFunction => 5
  | .echoMismatch => 6
  | .byteCountMismatch => 7
  | .ioError => 8
  | .argError => 9

/-- RESULT.OUTCOME (10_state.md R33). -/
def OutcomeKind.bits : OutcomeKind → BitVec 2
  | .none => 0
  | .value => 1
  | .bit => 2
  | .ack => 3

/-- RESULT.EXCKIND (10_state.md R33). -/
def ExcKind.bits : ExcKind → BitVec 3
  | .none => 0
  | .illegalFunction => 1
  | .illegalDataAddress => 2
  | .illegalDataValue => 3
  | .slaveDeviceFailure => 4
  | .unknown => 5

/-! ### Flags computed from the state -/

/-- BUSY (10_state.md R23). -/
def SeqState.busy : SeqState → Bool
  | .silence => true
  | .sent => true
  | .await => true
  | .idle => false
  | .completed => false
  | .failed => false

/-- DONE (10_state.md R23). -/
def SeqState.done : SeqState → Bool
  | .completed => true
  | .failed => true
  | .idle => false
  | .silence => false
  | .sent => false
  | .await => false

/-- One bit as a bit vector. -/
def bit (b : Bool) : BitVec 1 := BitVec.ofBool b

/-- STATUS (10_state.md R26): bits 2, 3, 7 and 10 to 31 read 0. -/
def statusWord (s : State) : Word :=
  (0 : BitVec 22) ++ bit s.cmdOvr ++ bit s.illCmd ++ (0 : BitVec 1) ++ s.state.bits ++
    (0 : BitVec 2) ++ bit s.state.done ++ bit s.state.busy

/-- RESULT (10_state.md R33): bits 7, 11 to 15 and 24 to 31 read 0. -/
def resultWord (r : Result) : Word :=
  (0 : BitVec 8) ++ r.excCode ++ (0 : BitVec 5) ++ r.excKind.bits ++ (0 : BitVec 1) ++
    bit r.lastCrc ++ r.outcome.bits ++ r.code.bits

/-! ### Output signals -/

/-- `tx_valid` (10_state.md R47). -/
def State.txValid (s : State) : Bool := s.state == .sent

/-- `tx_data` (10_state.md R47): 0x00 when no byte is offered. -/
def State.txData (s : State) : Byte := if s.txValid then s.txBuf.get s.txIdx.toNat else 0x00

/-- The outputs of a tick that starts in `s`, and `read`, what its HostRead returned
(43_transaction.md R181). -/
def State.outputs (s : State) (read : Option Word) : TickOutput :=
  ⟨s.txValid, s.txData, s.state.done, read⟩

/-! ### The read side of the register map -/

/-- `HostRead(off)` (20_memory.md R63; 10_state.md R24 to R41). CMD and reserved offsets read 0. -/
def hostRead (off : Byte) (s : State) : Word :=
  if off = 0x04 then statusWord s
  else if off = 0x08 then s.slave.setWidth 32
  else if off = 0x0C then s.regAddr.setWidth 32
  else if off = 0x10 then s.value.setWidth 32
  else if off = 0x14 then s.retry.setWidth 32
  else if off = 0x18 then s.timeout
  else if off = 0x1C then s.silence
  else if off = 0x20 then resultWord s.res
  else if off = 0x24 then s.dataOut.setWidth 32
  else if off = 0x28 then s.attempts.setWidth 32
  else if off = 0x2C then s.rxLen.setWidth 32
  else if off = 0x30 then s.txBuf.word0
  else if off = 0x34 then s.txBuf.word1
  else if off = 0x38 then s.rxBuf.word0
  else if off = 0x3C then s.rxBuf.word1
  else if off = 0x40 then s.crcIn.setWidth 32
  else if off = 0x44 then s.crc.setWidth 32
  else 0x00000000

end Sys2Proof.Machine
end

