-- ==== Sys2Proof/Machine/Crc.lean ====
section
/-! DEFINITION. The CRC-16/Modbus generator (40_crc.md): one function, used by the Frame Codec and by
the standalone unit. -/

namespace Sys2Proof.Machine

/-- The initial value of the CRC register (40_crc.md R110). -/
def crcInitValue : Half := 0xFFFF

/-- The polynomial in its bit-reversed form (40_crc.md R110). -/
def crcPolynomial : Half := 0xA001

/-- One of the eight rounds of `CrcStep` (40_crc.md R111). -/
def crcBit (c : Half) : Half :=
  if c.getLsbD 0 then (c >>> 1) ^^^ crcPolynomial else c >>> 1

/-- `n` rounds. -/
def crcBits : Nat → Half → Half
  | 0, c => c
  | n + 1, c => crcBits n (crcBit c)

/-- `CrcStep(c, b)` (40_crc.md R111). -/
def crcStep (c : Half) (b : Byte) : Half := crcBits 8 (c ^^^ b.setWidth 16)

/-- The CRC register after the bytes `m`, from `c` (40_crc.md R112). -/
def crcFrom (c : Half) : List Byte → Half
  | [] => c
  | b :: m => crcFrom (crcStep c b) m

/-- `Crc16(m)` (40_crc.md R112). -/
def crc16 (m : List Byte) : Half := crcFrom crcInitValue m

end Sys2Proof.Machine
end

