-- ==== Sys2Proof/Machine/FrameCodec.lean ====
section
/-! DEFINITION. The RTU Frame Codec (41_frame_codec.md): pure, total, no state. -/

namespace Sys2Proof.Machine

/-- Why bytes are no valid frame (41_frame_codec.md R134, R135). -/
inductive FrameError where
  | tooShort
  | checksumMismatch
deriving DecidableEq, Repr

/-- A decoded frame: its address byte and its PDU (41_frame_codec.md R132, R136). -/
structure Frame where
  address : Byte
  pdu : List Byte
deriving DecidableEq, Repr

/-- `FrameEncode(address, pdu)` (41_frame_codec.md R130; 30_encoding.md R87). -/
def frameEncode (address : Byte) (pdu : List Byte) : List Byte :=
  (address :: pdu) ++ le16 (crc16 (address :: pdu))

/-- Byte `i` of a byte sequence (00_scope.md R10); every index the codecs use is in range. -/
def byteAt (f : List Byte) (i : Nat) : Byte := f.getD i 0x00

/-- `f[n-1] << 8 | f[n-2]`: the CRC a frame carries (41_frame_codec.md R132; 30_encoding.md R99). -/
def frameCrc (f : List Byte) : Half := half (byteAt f (f.length - 1)) (byteAt f (f.length - 2))

/-- `FrameDecode(f)` (41_frame_codec.md R132). -/
def frameDecode (f : List Byte) : Except FrameError Frame :=
  if f.length < 4 then .error .tooShort
  else if frameCrc f ≠ crc16 (f.take (f.length - 2)) then .error .checksumMismatch
  else .ok ⟨byteAt f 0, (f.take (f.length - 2)).drop 1⟩

end Sys2Proof.Machine
end

