-- ==== Sys2Proof/Machine/PduCodec.lean ====
section
/-! DEFINITION. The PDU Codec (42_pdu_codec.md): pure encoding of requests and classification of
responses. -/

namespace Sys2Proof.Machine

/-! ### Request encoding -/

/-- EncReadCoils (42_pdu_codec.md R151). -/
def encReadCoils (addr : Half) : List Byte := [0x01] ++ be16 addr ++ be16 quantity

/-- EncReadHolding (42_pdu_codec.md R152). -/
def encReadHolding (addr : Half) : List Byte := [0x03] ++ be16 addr ++ be16 quantity

/-- EncWriteCoil (42_pdu_codec.md R154). -/
def encWriteCoil (addr value : Half) : List Byte := [0x05] ++ be16 addr ++ be16 (coilWord value)

/-- EncWriteRegister (42_pdu_codec.md R155). -/
def encWriteRegister (addr value : Half) : List Byte := [0x06] ++ be16 addr ++ be16 value

/-- `EncodeRequest(r)` (42_pdu_codec.md R150), for the function code `c` and the latched address and
value. -/
def encodeRequest (c : FunctionCode) (addr value : Half) : List Byte :=
  match c with
  | .readCoils => encReadCoils addr
  | .readHolding => encReadHolding addr
  | .writeCoil => encWriteCoil addr value
  | .writeRegister => encWriteRegister addr value

/-! ### Response classification -/

/-- The results of `DecodeResponse` (42_pdu_codec.md R160). -/
inductive Verdict where
  | exception (fc code : Byte)
  | value (v : Half)
  | bit (b : Bool)
  | ack
  | unexpectedFunction
  | echoMismatch
  | byteCountMismatch
deriving DecidableEq, Repr

/-- `ExcKind(c)` (42_pdu_codec.md R162; 30_encoding.md R97). -/
def excKindOf (c : Byte) : ExcKind :=
  if c = 0x01 then .illegalFunction
  else if c = 0x02 then .illegalDataAddress
  else if c = 0x03 then .illegalDataValue
  else if c = 0x04 then .slaveDeviceFailure
  else .unknown

/-- DecException (42_pdu_codec.md R161), of the exception function code and the exception code. -/
def decException (efc code : Byte) : Verdict := .exception (efc &&& 0x7F) code

/-- DecReadHolding (42_pdu_codec.md R163). -/
def decReadHolding (byteCount : Byte) (value : Half) : Verdict :=
  if byteCount = 0x02 then .value value else .byteCountMismatch

/-- DecReadCoils (42_pdu_codec.md R164). -/
def decReadCoils (byteCount data : Byte) : Verdict :=
  if byteCount = 0x01 then .bit (data.getLsbD 0) else .byteCountMismatch

/-- DecWriteRegister (42_pdu_codec.md R165): the echo against the request's address and wire value. -/
def decWriteRegister (addr value : Half) (r : Request) : Verdict :=
  if addr = r.addr ∧ value = wireValue .writeRegister r.value then .ack else .echoMismatch

/-- DecWriteCoil (42_pdu_codec.md R166): the echo against the request's address and coil word. -/
def decWriteCoil (addr cw : Half) (r : Request) : Verdict :=
  if addr = r.addr ∧ cw = wireValue .writeCoil r.value then .ack else .echoMismatch

/-- `DecodeResponse(p, r)` (42_pdu_codec.md R160), byte by byte as the rule writes it. The sequencer
decodes the PDU into an instruction and runs that instruction's meaning instead. The claim
`EvaluationFollowsPduCodec` says the two agree. -/
def decodeResponse (p : List Byte) (r : Request) : Verdict :=
  if byteAt p 0 = exceptionOf r.fc then decException (byteAt p 0) (byteAt p 1)
  else if byteAt p 0 = r.fc then
    match FunctionCode.ofByte r.fc with
    | some .readHolding => decReadHolding (byteAt p 1) (half (byteAt p 2) (byteAt p 3))
    | some .readCoils => decReadCoils (byteAt p 1) (byteAt p 2)
    | some .writeRegister =>
      decWriteRegister (half (byteAt p 1) (byteAt p 2)) (half (byteAt p 3) (byteAt p 4)) r
    | some .writeCoil =>
      decWriteCoil (half (byteAt p 1) (byteAt p 2)) (half (byteAt p 3) (byteAt p 4)) r
    | none => .unexpectedFunction
  else .unexpectedFunction

end Sys2Proof.Machine
end

