-- ==== Sys2Proof/Machine/Ops.lean ====
section
/-! DEFINITION. The named operations over the state: ending a transaction (`fail`, `complete`,
`attempt_failed`: the core's analogue of taking an exception, 60_exceptions.md R246), accepting a
command (the analogue of the return, R247), and the shared steps of an attempt. -/

namespace Sys2Proof.Machine

/-! ### Outcome procedures (43_transaction.md section 4) -/

/-- `fail(code, x)` (43_transaction.md R220, R223). -/
def State.fail (code : ResultCode) (x : Byte) (s : State) : State :=
  { s with
    state := .failed
    res := if code = .deviceException then ⟨code, .none, false, excKindOf x, x⟩
           else ⟨code, .none, false, .none, 0x00⟩
    dataOut := 0x0000 }

/-- `complete(kind, d)` (43_transaction.md R222). -/
def State.complete (kind : OutcomeKind) (d : Half) (s : State) : State :=
  { s with
    state := .completed
    res := ⟨.ok, kind, false, .none, 0x00⟩
    dataOut := d }

/-- Re-entering SILENCE for the next attempt: "Nothing else is changed by a retry"
(43_transaction.md R221). -/
def State.retryAttempt (s : State) : State := { s with state := .silence }

/-- The budget is exhausted: TIMEOUT, with LASTCRC telling the cause (43_transaction.md R221, R224). -/
def State.failTimeout (cause : Cause) (s : State) : State :=
  let t := s.fail .timeout 0x00
  { t with res := { t.res with lastCrc := cause == .crc } }

/-- An attempt may follow: `attempts < 1 + req_retry` (43_transaction.md R213). -/
def State.budgetLeft (s : State) : Bool := decide (s.attempts.toNat < 1 + s.req.retry.toNat)

/-- `attempt_failed(cause)` (43_transaction.md R221). -/
def State.attemptFailed (cause : Cause) (s : State) : State :=
  if s.budgetLeft then s.retryAttempt else s.failTimeout cause

/-- What the sequencer does with a verdict of `DecodeResponse` (43_transaction.md R210). -/
def State.settle (v : Verdict) (s : State) : State :=
  match v with
  | .exception _ x => s.fail .deviceException x
  | .unexpectedFunction => s.fail .unexpectedFunction 0x00
  | .echoMismatch => s.fail .echoMismatch 0x00
  | .byteCountMismatch => s.fail .byteCountMismatch 0x00
  | .value v => s.complete .value v
  | .bit b => s.complete .bit ((BitVec.ofBool b).setWidth 16)
  | .ack => s.complete .ack 0x0000

/-! ### Accepting a transaction command (43_transaction.md section 2) -/

/-- The re-initialisation of every per-transaction element (43_transaction.md R184). -/
def State.clearTransaction (s : State) : State :=
  { s with
    res := Result.cleared
    dataOut := 0x0000
    attempts := 0
    rxBuf := Buffer.zero
    rxLen := 0
    txIdx := 0
    timer := 0x00000000 }

/-- `Latch(c)` (43_transaction.md R187). -/
def State.latch (c : FunctionCode) (s : State) : State :=
  { s with req := ⟨s.slave, c.code, s.regAddr, s.value, s.retry, s.timeout, s.silence⟩ }

/-- The frame of a PDU for the latched slave, in the transmit buffer (43_transaction.md R188). -/
def State.loadRequest (pdu : List Byte) (s : State) : State :=
  { s with txBuf := Buffer.ofList (frameEncode s.req.slave pdu) }

/-- The slave addresses a transaction may have: 1 to 247 (43_transaction.md R185). -/
def slaveInRange (a : Byte) : Bool := decide (1 ≤ a.toNat ∧ a.toNat ≤ 247)

/-- A transaction refused for its slave address (43_transaction.md R184, R185). -/
def State.refuseSlave (s : State) : State := { s with txBuf := Buffer.zero }.fail .argError 0x00

/-- The latched request is encoded and waits for the inter-frame silence (43_transaction.md R184, R188). -/
def State.buildRequest (c : FunctionCode) (s : State) : State :=
  { s.loadRequest (encodeRequest c s.req.addr s.req.value) with state := .silence }

/-- `AcceptTransaction(c)` (43_transaction.md R184). -/
def State.acceptTransaction (c : FunctionCode) (s : State) : State :=
  if slaveInRange s.slave then (s.clearTransaction.latch c).buildRequest c
  else (s.clearTransaction.latch c).refuseSlave

/-- A transaction command while BUSY: refused (43_transaction.md R186). -/
def State.overrun (s : State) : State := { s with cmdOvr := true }

/-- The transaction branch of `CommandWrite(c)` (43_transaction.md R183). -/
def State.transactionCommand (c : FunctionCode) (s : State) : State :=
  if s.state.busy then s.overrun else s.acceptTransaction c

/-- The illegal branch of `CommandWrite(c)` (43_transaction.md R183; 30_encoding.md R82). -/
def State.illegalCommand (s : State) : State := { s with illCmd := true }

/-! ### The standalone CRC unit (40_crc.md) -/

/-- The standalone CRC register takes a value (40_crc.md R114, R115). -/
def State.setCrc (c : Half) (s : State) : State := { s with crc := c }

/-! ### Attempts -/

/-- StartAttempt (43_transaction.md R196). -/
def State.startAttempt (s : State) : State :=
  { s with
    attempts := s.attempts + 1
    rxBuf := Buffer.zero
    rxLen := 0
    txIdx := 0
    timer := 0x00000000
    state := .sent }

/-- A byte was transferred in SENT (43_transaction.md R189, R200, R201). -/
def State.advanceTx (s : State) : State :=
  if s.txIdx + 1 = 8 then { s with txIdx := s.txIdx + 1, timer := 0x00000000, state := .await }
  else { s with txIdx := s.txIdx + 1 }

/-- A byte arrived in AWAIT (43_transaction.md R204). -/
def State.storeRx (b : Byte) (s : State) : State :=
  { s with rxBuf := s.rxBuf.set s.rxLen.toNat b, rxLen := s.rxLen + 1 }

/-- The response is structurally complete: `rxlen ≥ 2` and `rxlen = ExpectedLen` (43_transaction.md R189). -/
def State.frameComplete (s : State) : Bool :=
  decide (2 ≤ s.rxLen.toNat) && expectedLen s.req.fc (s.rxBuf.get 1) == some s.rxLen.toNat

/-- An AWAIT tick without completion (43_transaction.md R205). -/
def State.deadlineTick (s : State) : State :=
  let t := { s with timer := s.timer + 1 }
  if s.req.timeout ≤ t.timer then t.attemptFailed .deadline else t

/-- `sat_inc32(v)` (00_scope.md R11). -/
def satInc32 (v : Word) : Word := if v < 0xFFFFFFFF then v + 1 else v

/-! ### A response PDU in AWAIT -/

/-- What a normal response PDU of function `c` does: it is settled against the latched request, and is
UnexpectedFunction where the request has another function code (42_pdu_codec.md R160, R169). A PDU
arriving outside AWAIT is discarded (43_transaction.md R191, R197, R203; log entry 8). -/
def State.respond (c : FunctionCode) (v : Request → Verdict) (s : State) : State :=
  if s.state = .await then s.settle (if s.req.fc = c.code then v s.req else .unexpectedFunction) else s

/-! ### Outcomes -/

/-- Run the rest of a tick on the next state, if there is one. -/
def andThen (o : Host.Outcome State Fault Refusal) (f : State → Host.Outcome State Fault Refusal) :
    Host.Outcome State Fault Refusal :=
  match o with
  | .next s => f s
  | .fault r => .fault r
  | .refused r => .refused r

end Sys2Proof.Machine
end

