-- ==== Sys2Proof/Machine/Commands.lean ====
section
/-! DEFINITION. The host commands (30_encoding.md R81): what a write of the code to CMD does in the host
phase of its tick (43_transaction.md R183). -/

namespace Sys2Proof.Machine

/-- EXEC_RC (43_transaction.md R230). -/
def execExecRc (s : State) : Host.Outcome State Fault Refusal := .next (s.transactionCommand .readCoils)

/-- EXEC_RHR (43_transaction.md R231). -/
def execExecRhr (s : State) : Host.Outcome State Fault Refusal := .next (s.transactionCommand .readHolding)

/-- EXEC_WSC (43_transaction.md R232). -/
def execExecWsc (s : State) : Host.Outcome State Fault Refusal := .next (s.transactionCommand .writeCoil)

/-- EXEC_WSR (43_transaction.md R233). -/
def execExecWsr (s : State) : Host.Outcome State Fault Refusal := .next (s.transactionCommand .writeRegister)

/-- CRC_INIT (40_crc.md R114): accepted in every sequencer state. -/
def execCrcInit (s : State) : Host.Outcome State Fault Refusal := .next (s.setCrc crcInitValue)

/-- CRC_FEED (40_crc.md R115): accepted in every sequencer state. -/
def execCrcFeed (s : State) : Host.Outcome State Fault Refusal := .next (s.setCrc (crcStep s.crc s.crcIn))

end Sys2Proof.Machine
end

