-- ==== Sys2Proof/Machine/Requests.lean ====
section
/-! DEFINITION. The request PDUs (42_pdu_codec.md R151 to R155). A request PDU acts on the core by being
built into the transmit buffer, framed for the latched slave (43_transaction.md R188); the core builds
exactly one at each acceptance, the one whose operands are the latched ones, and only well-formed ones
(30_encoding.md R92; log entry 5). -/

namespace Sys2Proof.Machine

/-- REQ_READ_COILS (42_pdu_codec.md R151). -/
def execReqReadCoils (addr q : Half) (s : State) : Host.Outcome State Fault Refusal :=
  .next (s.loadRequest ([0x01] ++ be16 addr ++ be16 q))

/-- REQ_READ_HOLDING_REGISTERS (42_pdu_codec.md R152). -/
def execReqReadHolding (addr q : Half) (s : State) : Host.Outcome State Fault Refusal :=
  .next (s.loadRequest ([0x03] ++ be16 addr ++ be16 q))

/-- REQ_WRITE_SINGLE_COIL (42_pdu_codec.md R154). -/
def execReqWriteCoil (addr cw : Half) (s : State) : Host.Outcome State Fault Refusal :=
  .next (s.loadRequest ([0x05] ++ be16 addr ++ be16 cw))

/-- REQ_WRITE_SINGLE_REGISTER (42_pdu_codec.md R155). -/
def execReqWriteRegister (addr v : Half) (s : State) : Host.Outcome State Fault Refusal :=
  .next (s.loadRequest ([0x06] ++ be16 addr ++ be16 v))

end Sys2Proof.Machine
end

