-- ==== Sys2Proof/Machine/Responses.lean ====
section
/-! DEFINITION. The response and exception PDUs (42_pdu_codec.md R161 to R166): what the core does when
the PDU of a checksum-valid response from the right address is evaluated (43_transaction.md R210). -/

namespace Sys2Proof.Machine

/-- RSP_READ_COILS (42_pdu_codec.md R164). -/
def execRspReadCoils (byteCount data : Byte) (s : State) : Host.Outcome State Fault Refusal :=
  .next (s.respond .readCoils (fun _ => decReadCoils byteCount data))

/-- RSP_READ_HOLDING_REGISTERS (42_pdu_codec.md R163). -/
def execRspReadHolding (byteCount : Byte) (value : Half) (s : State) : Host.Outcome State Fault Refusal :=
  .next (s.respond .readHolding (fun _ => decReadHolding byteCount value))

/-- RSP_WRITE_SINGLE_COIL (42_pdu_codec.md R166). -/
def execRspWriteCoil (addr cw : Half) (s : State) : Host.Outcome State Fault Refusal :=
  .next (s.respond .writeCoil (decWriteCoil addr cw))

/-- RSP_WRITE_SINGLE_REGISTER (42_pdu_codec.md R165). -/
def execRspWriteRegister (addr value : Half) (s : State) : Host.Outcome State Fault Refusal :=
  .next (s.respond .writeRegister (decWriteRegister addr value))

/-- EXC_READ_COILS (42_pdu_codec.md R161). -/
def execExcReadCoils (code : Byte) (s : State) : Host.Outcome State Fault Refusal :=
  .next (s.respond .readCoils (fun _ => decException 0x81 code))

/-- EXC_READ_HOLDING_REGISTERS (42_pdu_codec.md R161). -/
def execExcReadHolding (code : Byte) (s : State) : Host.Outcome State Fault Refusal :=
  .next (s.respond .readHolding (fun _ => decException 0x83 code))

/-- EXC_WRITE_SINGLE_COIL (42_pdu_codec.md R161). -/
def execExcWriteCoil (code : Byte) (s : State) : Host.Outcome State Fault Refusal :=
  .next (s.respond .writeCoil (fun _ => decException 0x85 code))

/-- EXC_WRITE_SINGLE_REGISTER (42_pdu_codec.md R161). -/
def execExcWriteRegister (code : Byte) (s : State) : Host.Outcome State Fault Refusal :=
  .next (s.respond .writeRegister (fun _ => decException 0x86 code))

end Sys2Proof.Machine
end

