-- ==== Sys2Proof/Machine/Dispatch.lean ====
section
/-! DEFINITION. One arm per instruction. -/

namespace Sys2Proof.Machine

def exec (i : Instr) (s : State) : Host.Outcome State Fault Refusal :=
  match i with
  | .execRc => Sys2Proof.Machine.execExecRc s
  | .execRhr => Sys2Proof.Machine.execExecRhr s
  | .execWsc => Sys2Proof.Machine.execExecWsc s
  | .execWsr => Sys2Proof.Machine.execExecWsr s
  | .crcInit => Sys2Proof.Machine.execCrcInit s
  | .crcFeed => Sys2Proof.Machine.execCrcFeed s
  | .reqReadCoils addr q => Sys2Proof.Machine.execReqReadCoils addr q s
  | .reqReadHolding addr q => Sys2Proof.Machine.execReqReadHolding addr q s
  | .reqWriteCoil addr cw => Sys2Proof.Machine.execReqWriteCoil addr cw s
  | .reqWriteRegister addr v => Sys2Proof.Machine.execReqWriteRegister addr v s
  | .rspReadCoils byteCount data => Sys2Proof.Machine.execRspReadCoils byteCount data s
  | .rspReadHolding byteCount v => Sys2Proof.Machine.execRspReadHolding byteCount v s
  | .rspWriteCoil addr cw => Sys2Proof.Machine.execRspWriteCoil addr cw s
  | .rspWriteRegister addr v => Sys2Proof.Machine.execRspWriteRegister addr v s
  | .excReadCoils code => Sys2Proof.Machine.execExcReadCoils code s
  | .excReadHolding code => Sys2Proof.Machine.execExcReadHolding code s
  | .excWriteCoil code => Sys2Proof.Machine.execExcWriteCoil code s
  | .excWriteRegister code => Sys2Proof.Machine.execExcWriteRegister code s

end Sys2Proof.Machine
end

