-- ==== Sys2Proof/Machine/HostPort.lean ====
section
/-! DEFINITION. The host phase of a tick (43_transaction.md R180): at most one host access
(20_memory.md R63 to R65). -/

namespace Sys2Proof.Machine

/-- `CommandWrite(c)` (43_transaction.md R183): the command of the written word is decoded and run; a
code that is no command sets ILLCMD and has no other effect (30_encoding.md R82). -/
def commandWrite (v : Word) (s : State) : Host.Outcome State Fault Refusal :=
  match decode .command (wordBytes v) with
  | .ok i => exec i s
  | .error _ => .next s.illegalCommand

/-- A write to STATUS clears the sticky bits written as 1 (10_state.md R26; 20_memory.md R64). -/
def State.clearSticky (v : Word) (s : State) : State :=
  { s with illCmd := s.illCmd && !v.getLsbD 8, cmdOvr := s.cmdOvr && !v.getLsbD 9 }

/-- `HostWrite(off, v)` (20_memory.md R64): each field stores exactly the bits written to it
(10_state.md R42); a read-only or reserved offset ignores the write (R24). -/
def hostWrite (off : Byte) (v : Word) (s : State) : Host.Outcome State Fault Refusal :=
  if off = 0x00 then commandWrite v s
  else if off = 0x04 then .next (s.clearSticky v)
  else if off = 0x08 then .next { s with slave := v.extractLsb' 0 8 }
  else if off = 0x0C then .next { s with regAddr := v.extractLsb' 0 16 }
  else if off = 0x10 then .next { s with value := v.extractLsb' 0 16 }
  else if off = 0x14 then .next { s with retry := v.extractLsb' 0 4 }
  else if off = 0x18 then .next { s with timeout := v }
  else if off = 0x1C then .next { s with silence := v }
  else if off = 0x40 then .next { s with crcIn := v.extractLsb' 0 8 }
  else .next s

/-- Only 32-bit accesses at multiples of 4 are defined (20_memory.md R65). -/
def HostAccess.defined (a : HostAccess) : Bool := decide (a.bits = 32 ∧ a.off.toNat % 4 = 0)

/-- Why a tick with these host accesses is refused, if it is: an access outside R65, or more than one
(20_memory.md R65; 93_implementation_defined.md I3, I4). -/
def hostRefusal (accesses : List HostAccess) : Option Refusal :=
  match accesses with
  | [] => none
  | [a] => if a.defined then none else some .undefinedHostAccess
  | _ => some .severalHostAccesses

/-- One defined host access; a read has no side effect (20_memory.md R63). -/
def hostAccess (a : HostAccess) (s : State) : Host.Outcome State Fault Refusal :=
  match a.op with
  | .read => .next s
  | .write v => hostWrite a.off v s

/-- `HostPhase(host)` (43_transaction.md R180), of accesses that `hostRefusal` admits: at most one. -/
def hostPhase (accesses : List HostAccess) (s : State) : Host.Outcome State Fault Refusal :=
  match accesses with
  | [] => .next s
  | a :: _ => hostAccess a s

/-- What the HostRead of a tick that starts in `s` returns, if there is one (20_memory.md R63). -/
def hostReadData (accesses : List HostAccess) (s : State) : Option Word :=
  match accesses with
  | [a] =>
    match a.op with
    | .read => some (hostRead a.off s)
    | .write _ => none
  | _ => none

end Sys2Proof.Machine
end

