-- ==== Sys2Proof/Machine/Sequencer.lean ====
section
/-! DEFINITION. The sequencer phase of a tick (43_transaction.md R189) and the evaluation of a complete
response (R210). -/

namespace Sys2Proof.Machine

/-- The PDU of a valid response from the right address: decoded, and run (43_transaction.md R210). A
PDU that is no response or exception of one of the four functions, or whose length is not its
format's, begins with neither `fc` nor `fc | 0x80` and is UnexpectedFunction (42_pdu_codec.md R169). -/
def runPdu (p : List Byte) (s : State) : Host.Outcome State Fault Refusal :=
  match decode .response p with
  | .ok i => exec i s
  | .error _ => .next (s.fail .unexpectedFunction 0x00)

/-- `Evaluate` (43_transaction.md R210): checksum, then address, then the PDU. A TooShort would be handled
like a ChecksumMismatch (41_frame_codec.md R134). -/
def evaluate (s : State) : Host.Outcome State Fault Refusal :=
  match frameDecode (s.rxBuf.first s.rxLen.toNat) with
  | .error _ => .next (s.attemptFailed .crc)
  | .ok f => if f.address = s.req.slave then runPdu f.pdu s else .next (s.fail .addressMismatch 0x00)

/-- The SILENCE state (43_transaction.md R189, R195, R197). -/
def silenceTick (rx : Option Byte) (idle0 : Word) (s : State) : State :=
  if rx = none ∧ s.req.silence ≤ idle0 then s.startAttempt else s

/-- The SENT state (43_transaction.md R189, R200, R203). -/
def sentTick (txReady : Bool) (s : State) : State := if txReady then s.advanceTx else s

/-- The byte of this tick is stored, if there is one (43_transaction.md R204). -/
def State.receive (rx : Option Byte) (s : State) : State :=
  match rx with
  | some b => s.storeRx b
  | none => s

/-- The AWAIT state: completion is tested before the deadline (43_transaction.md R189, R204 to R207). -/
def awaitTick (rx : Option Byte) (s : State) : Host.Outcome State Fault Refusal :=
  let t := s.receive rx
  if t.frameComplete then evaluate t else .next t.deadlineTick

/-- `SeqPhase(rx, tx_ready, io_err, idle0)` (43_transaction.md R189); an I/O error while BUSY comes first
(R190), and outside BUSY nothing happens (R191). -/
def seqPhase (rx : Option Byte) (txReady ioErr : Bool) (idle0 : Word) (s : State) :
    Host.Outcome State Fault Refusal :=
  if s.state.busy && ioErr then .next (s.fail .ioError 0x00)
  else
    match s.state with
    | .silence => .next (silenceTick rx idle0 s)
    | .sent => .next (sentTick txReady s)
    | .await => awaitTick rx s
    | .idle => .next s
    | .completed => .next s
    | .failed => .next s

end Sys2Proof.Machine
end

