-- ==== Sys2Proof/Machine/Tick.lean ====
section
/-! DEFINITION. One tick (43_transaction.md R180), and the placing of an instruction for the next tick. -/

namespace Sys2Proof.Machine

/-- The inputs of the next tick: the first listed, or free (00_scope.md R14; log entry 1). -/
def State.nextInput (s : State) : TickInput :=
  match s.inputs with
  | [] => Config.freeInput s.ticks
  | t :: _ => t

/-- A TX transfer occurs (20_memory.md R67; 43_transaction.md R180). -/
def State.transfers (s : State) (t : TickInput) : Bool := s.txValid && t.txReady

/-- Byte activity on the line in this tick: a TX transfer or an RX arrival (43_transaction.md R180, R182). -/
def State.activity (s : State) (t : TickInput) : Bool := s.transfers t || t.rx.isSome

/-- The line idle counter after a tick that starts in `s` (43_transaction.md R182). -/
def State.nextIdle (s : State) (t : TickInput) : Word :=
  if s.activity t then 0x00000000 else satInc32 s.idle

/-- The end of a tick that starts in `s`: the idle counter (43_transaction.md R180, R182), the tick's
outputs (R181), and the model's own account of the inputs (log entries 1 to 3). -/
def State.endTick (s : State) (t : TickInput) (u : State) : State :=
  { u with
    idle := s.nextIdle t
    inputs := s.inputs.tail
    ticks := s.ticks + 1
    out := s.outputs (hostReadData t.host s) }

/-- A reset tick: every state element takes its reset value, the outputs are low, and nothing else
happens (70_reset_and_hazards.md R270). -/
def State.resetTick (s : State) : State :=
  { State.reset with inputs := s.inputs.tail, ticks := s.ticks + 1, out := TickOutput.low }

/-- The tick of an admitted input (43_transaction.md R180): reset, or the host phase, then the sequencer
phase, then the end. -/
def definedTick (t : TickInput) (s : State) : Host.Outcome State Fault Refusal :=
  if t.rst then .next s.resetTick
  else
    andThen (hostPhase t.host s) fun s1 =>
      andThen (seqPhase t.rx t.txReady t.ioErr s.idle s1) fun s2 => .next (s.endTick t s2)

/-- `Tick` (43_transaction.md R180). A tick with an undefined host access, or with more than one, is
refused, a reset tick too: "a run containing one is outside every claim" (20_memory.md R65). -/
def tick (t : TickInput) (s : State) : Host.Outcome State Fault Refusal :=
  match hostRefusal t.host with
  | some r => .refused r
  | none => definedTick t s

/-! ### Placing an instruction -/

/-- A tick in which the host writes `v` to CMD and the transport does nothing. -/
def commandTick (v : Word) : TickInput := ⟨false, [⟨32, 0x00, .write v⟩], none, false, false⟩

/-- A tick in which the transport delivers `b` and nothing else happens. -/
def arrivalTick (b : Byte) : TickInput := ⟨false, [], some b, false, false⟩

/-- The state in which the next tick writes `v` to CMD. -/
def State.placeCommand (v : Word) (s : State) : State :=
  { s with inputs := commandTick v :: s.inputs }

/-- The state in AWAIT in which the next tick delivers the last byte of the response frame with PDU `p`
from the latched slave, every earlier byte having arrived. The latched function code is the one the
PDU answers. -/
def State.placeResponse (p : List Byte) (s : State) : State :=
  { s with
    state := .await
    req := { s.req with fc := byteAt p 0 &&& 0x7F }
    rxBuf := Buffer.ofList ((frameEncode s.req.slave p).take (p.length + 2))
    rxLen := BitVec.ofNat 4 (p.length + 2)
    inputs := arrivalTick (byteAt (frameEncode s.req.slave p) (p.length + 2)) :: s.inputs }

/-- An instruction word placed at the port `decodeTableWord` reads it at (log entry 7). -/
def State.placeTableWord (s : State) (nbits w : Nat) : State :=
  match decode .command (tableCommand nbits w) with
  | .ok _ => s.placeCommand (BitVec.ofNat 32 (w % 2 ^ nbits))
  | .error _ =>
    match decode .response (tablePdu nbits w) with
    | .ok _ => s.placeResponse (tablePdu nbits w)
    | .error _ => s.placeCommand (BitVec.ofNat 32 (w % 2 ^ nbits))

end Sys2Proof.Machine
end

