-- ==== Sys2Proof/Machine/Step.lean ====
section
/-! DEFINITION. One step is one tick (00_scope.md R12, R14). -/

namespace Sys2Proof.Machine

/-- One tick on the next inputs (43_transaction.md R180). -/
def step (s : State) : Host.Outcome State Fault Refusal := tick s.nextInput s

/-- `s` with an instruction placed where the next step fetches one: a command word as the next host
write to CMD, a response PDU as a response frame whose last byte arrives next (log entry 7). -/
def State.withFetchWord (s : State) (nbits w : Nat) : State := s.placeTableWord nbits w

end Sys2Proof.Machine
end

