-- ==== Sys2Proof/Safety.lean ====
section
/-! DEFINITION. The terms claims use: the invariant of the core, which ticks are defined, the inputs of
the coming ticks, and the instructions that belong to a function code. -/

namespace Sys2Proof.Machine

/-! ### The invariant -/

/-- `txidx` is 0 to 8, and below 8 while a byte is offered (10_state.md R44; 43_transaction.md R201). -/
structure State.TxInv (s : State) : Prop where
  bound : s.txIdx.toNat ≤ 8
  sent : s.state = .sent → s.txIdx.toNat < 8

/-- `rxlen` is 0 to 8, the bytes past it are zero (10_state.md R37, R39), nothing is received before AWAIT
(43_transaction.md R196, R203), and an AWAIT state holds no complete response, so that `rxbuf` never
overflows (30_encoding.md R95). -/
structure State.RxInv (s : State) : Prop where
  bound : s.rxLen.toNat ≤ 8
  zeroTail : ∀ i, s.rxLen.toNat ≤ i → s.rxBuf.get i = 0x00
  sent : s.state = .sent → s.rxLen = 0
  await : s.state = .await → 2 ≤ s.rxLen.toNat →
    ∃ n, expectedLen s.req.fc (s.rxBuf.get 1) = some n ∧ s.rxLen.toNat < n

/-- While BUSY the latched Request is one of the four with a legal slave address, and `txbuf` is its
frame: every attempt sends the same eight bytes (43_transaction.md R185, R188). -/
def State.ReqInv (s : State) : Prop :=
  s.state.busy = true →
    slaveInRange s.req.slave = true ∧
    ∃ c : FunctionCode, s.req.fc = c.code ∧
      s.txBuf = Buffer.ofList (frameEncode s.req.slave (encodeRequest c s.req.addr s.req.value))

/-- At most `1 + req_retry` attempts (43_transaction.md R213): one more may start from SILENCE, and one
has started in SENT and AWAIT. -/
structure State.AttemptsInv (s : State) : Prop where
  bound : s.attempts.toNat ≤ 1 + s.req.retry.toNat
  silence : s.state = .silence → s.attempts.toNat < 1 + s.req.retry.toNat
  started : s.state = .sent ∨ s.state = .await → 1 ≤ s.attempts.toNat

/-- In AWAIT the deadline has not passed (43_transaction.md R205, R206). -/
def State.DeadlineInv (s : State) : Prop :=
  s.state = .await → s.timer.toNat < max s.req.timeout.toNat 1

/-- What RESULT and DATA_OUT may hold in each state (10_state.md R33 to R35; 60_exceptions.md R241;
70_reset_and_hazards.md R281). -/
structure State.ResultInv (s : State) : Prop where
  /-- IDLE and BUSY: RESULT and DATA_OUT read 0 -/
  cleared : s.state.done = false → s.res = Result.cleared ∧ s.dataOut = 0x0000
  /-- COMPLETED: CODE OK, with the outcome of the function code -/
  completed : s.state = .completed →
    s.res.code = .ok ∧ s.res.lastCrc = false ∧ s.res.excKind = .none ∧ s.res.excCode = 0x00 ∧
    ((s.res.outcome = .value ∧ s.req.fc = 0x03) ∨
     (s.res.outcome = .bit ∧ s.req.fc = 0x01 ∧ s.dataOut.toNat ≤ 1) ∨
     (s.res.outcome = .ack ∧ (s.req.fc = 0x05 ∨ s.req.fc = 0x06) ∧ s.dataOut = 0x0000))
  /-- FAILED: an error code, no outcome, no data; LASTCRC only with TIMEOUT, the exception fields only
  with DEVICE_EXCEPTION -/
  failed : s.state = .failed →
    s.res.code ≠ .none ∧ s.res.code ≠ .ok ∧ s.res.outcome = .none ∧ s.dataOut = 0x0000 ∧
    (s.res.lastCrc = true → s.res.code = .timeout) ∧
    (s.res.code = .deviceException → s.res.excKind = excKindOf s.res.excCode) ∧
    (s.res.code ≠ .deviceException → s.res.excKind = .none ∧ s.res.excCode = 0x00)

/-- The invariant of the core: it holds after reset and every tick keeps it. -/
structure State.Inv (s : State) : Prop where
  tx : s.TxInv
  rx : s.RxInv
  req : s.ReqInv
  attempts : s.AttemptsInv
  deadline : s.DeadlineInv
  result : s.ResultInv

/-! ### Inputs -/

/-- At most one host access, and a defined one (20_memory.md R65). -/
def TickInput.hostDefined (t : TickInput) : Bool :=
  match t.host with
  | [] => true
  | [a] => a.defined
  | _ => false

/-- No reset, no I/O error, and a host access the model does not refuse. -/
def TickInput.calm (t : TickInput) : Bool := !t.rst && !t.ioErr && t.hostDefined

/-- The word this tick writes at an offset, if it does. -/
def TickInput.written (off : Byte) (t : TickInput) : Option Word :=
  match t.host with
  | [a] =>
    match a.op with
    | .write v => if a.off = off then some v else none
    | .read => none
  | _ => none

/-- The code this tick writes to CMD, if it does (30_encoding.md R80). -/
def TickInput.command (t : TickInput) : Option Byte := (t.written 0x00).map (·.extractLsb' 0 8)

/-- The inputs of the tick `j` ticks from now: listed, or free (log entry 1). -/
def State.inputAt (s : State) (j : Nat) : TickInput :=
  match s.inputs[j]? with
  | some t => t
  | none => Config.freeInput (s.ticks + j)

/-- The bytes that the CRC_FEED commands of these ticks fold, from the value `cin` of CRC_IN
(40_crc.md R115, R118). -/
def fedBytes (cin : Byte) : List TickInput → List Byte
  | [] => []
  | t :: ts =>
    (if t.command = some 0x41 then [cin] else []) ++
      fedBytes (match t.written 0x40 with
        | some v => v.extractLsb' 0 8
        | none => cin) ts

/-- A byte sequence with bit `i` flipped, bit 0 of byte 0 first. -/
def flipBit : Nat → List Byte → List Byte
  | _, [] => []
  | i, b :: m => if i < 8 then (b ^^^ (1#8 <<< i)) :: m else b :: flipBit (i - 8) m

/-! ### The instructions of a function code -/

/-- The command that starts a transaction of this function (30_encoding.md R81). -/
def commandOf : FunctionCode → Instr
  | .readCoils => .execRc
  | .readHolding => .execRhr
  | .writeCoil => .execWsc
  | .writeRegister => .execWsr

/-- The request PDU of this function for a latched address and value (42_pdu_codec.md R151 to R156). -/
def requestOf (c : FunctionCode) (addr value : Half) : Instr :=
  match c with
  | .readCoils => .reqReadCoils addr (wireValue .readCoils value)
  | .readHolding => .reqReadHolding addr (wireValue .readHolding value)
  | .writeCoil => .reqWriteCoil addr (wireValue .writeCoil value)
  | .writeRegister => .reqWriteRegister addr (wireValue .writeRegister value)

/-- The exception PDU of this function (30_encoding.md R91). -/
def exceptionPdu (c : FunctionCode) (code : Byte) : Instr :=
  match c with
  | .readCoils => .excReadCoils code
  | .readHolding => .excReadHolding code
  | .writeCoil => .excWriteCoil code
  | .writeRegister => .excWriteRegister code

/-- The number of bytes of a response PDU with this first byte to a request of function `c`
(30_encoding.md R93, R94). -/
def responsePduLength (c : FunctionCode) (first : Byte) : Nat :=
  if first = exceptionOf c.code then 2 else normLen c - 3

end Sys2Proof.Machine
end

