-- ==== Sys2Proof/Certificates/Slice0/Obligations.lean ====
section
/-! DEFINITION. The statements for the provers. -/

open Sys2Proof Sys2Proof.Machine

/-! ## Encoding -/

/-- Decoding the bytes of any well-formed instruction at its own port gives it back, every operand at
every value (30_encoding.md sections 1 to 4). -/
def Obligations.DecodeInvertsEncode : Prop :=
  ∀ i : Instr, i.wellFormed = true → decode i.port (encode i) = .ok i

/-- What the decoder accepts is well formed and of the port it was read at; at CMD the word has four bytes
and only its first counts (R80), and on the wire the bytes are exactly the instruction's (R84 to R92). -/
def Obligations.DecodedBytesAreExact : Prop :=
  ∀ (p : Port) (m : List Byte) (i : Instr), decode p m = .ok i →
    i.wellFormed = true ∧ i.port = p ∧
    (p = .command → m.length = 4 ∧ m.head? = (encode i).head?) ∧
    (p ≠ .command → m = encode i)

/-- Words and bytes written out from 30_encoding.md decode to the instruction they stand for. -/
def Obligations.WrittenOutWordsDecode : Prop :=
  decode .command [0x01, 0x00, 0x00, 0x00] = .ok .execRc ∧
  decode .command [0x06, 0xAD, 0xDE, 0xFF] = .ok .execWsr ∧
  decode .command [0x41, 0x00, 0x00, 0x00] = .ok .crcFeed ∧
  decode .request [0x03, 0x00, 0x6B, 0x00, 0x01] = .ok (.reqReadHolding 0x006B 0x0001) ∧
  decode .request [0x05, 0x00, 0x07, 0xFF, 0x00] = .ok (.reqWriteCoil 0x0007 0xFF00) ∧
  decode .response [0x03, 0x02, 0x12, 0x34] = .ok (.rspReadHolding 0x02 0x1234) ∧
  decode .response [0x83, 0x02] = .ok (.excReadHolding 0x02) ∧
  decode .command [0x07, 0x00, 0x00, 0x00] = .error .illegalCommand ∧
  decode .response [0x04, 0x02, 0x12, 0x34] = .error .unknownFunction

/-- R82: a CMD write whose CODE is none of the six sets ILLCMD and has no other effect, in every state. -/
def Obligations.IllegalCodeSetsOnlyIllcmd : Prop :=
  ∀ (v : Word) (s : State),
    v.extractLsb' 0 8 ≠ 0x01 → v.extractLsb' 0 8 ≠ 0x03 → v.extractLsb' 0 8 ≠ 0x05 →
    v.extractLsb' 0 8 ≠ 0x06 → v.extractLsb' 0 8 ≠ 0x40 → v.extractLsb' 0 8 ≠ 0x41 →
    hostWrite 0x00 v s = .next { s with illCmd := true }

/-- A CMD write runs the command of bits [7:0], whatever bits [31:8] are (R80, R81). -/
def Obligations.CommandWordRunsItsCode : Prop :=
  ∀ (v : Word) (s : State),
    (v.extractLsb' 0 8 = 0x01 → hostWrite 0x00 v s = exec .execRc s) ∧
    (v.extractLsb' 0 8 = 0x03 → hostWrite 0x00 v s = exec .execRhr s) ∧
    (v.extractLsb' 0 8 = 0x05 → hostWrite 0x00 v s = exec .execWsc s) ∧
    (v.extractLsb' 0 8 = 0x06 → hostWrite 0x00 v s = exec .execWsr s) ∧
    (v.extractLsb' 0 8 = 0x40 → hostWrite 0x00 v s = exec .crcInit s) ∧
    (v.extractLsb' 0 8 = 0x41 → hostWrite 0x00 v s = exec .crcFeed s)

/-! ## CRC -/

/-- R114: CRC_INIT sets `crc` to 0xFFFF in every state and leaves everything else. -/
def Obligations.CrcInitLoadsAllOnes : Prop :=
  ∀ (v : Word) (s : State),
    exec .crcInit s = .next { s with crc := 0xFFFF } ∧
    (v.extractLsb' 0 8 = 0x40 →
      ∃ u, hostWrite 0x00 v s = .next u ∧ u = { s with crc := 0xFFFF } ∧ hostRead 0x44 u = 0x0000FFFF)

/-- R115: CRC_FEED folds CRC_IN into `crc` in every state and leaves everything else. -/
def Obligations.CrcFeedFoldsCrcIn : Prop :=
  ∀ (v : Word) (s : State),
    exec .crcFeed s = .next { s with crc := crcStep s.crc s.crcIn } ∧
    (v.extractLsb' 0 8 = 0x41 →
      ∃ u, hostWrite 0x00 v s = .next u ∧ u = { s with crc := crcStep s.crc s.crcIn } ∧
        hostRead 0x44 u = (crcStep s.crc s.crcIn).setWidth 32)

/-- One byte step is linear over exclusive or (R111). -/
def Obligations.CrcStepIsLinear : Prop :=
  ∀ (c d : Half) (a b : Byte), crcStep (c ^^^ d) (a ^^^ b) = crcStep c a ^^^ crcStep d b

/-- R118: after CRC_INIT, ticks that are no reset and whose host access is a defined one other than CRC_INIT,
with anything on the line, leave `crc = Crc16` of the bytes their CRC_FEED commands folded. -/
def Obligations.CrcUnitComputesCrc16 : Prop :=
  ∀ (s : State) (t0 : TickInput) (ts rest : List TickInput),
    s.inputs = t0 :: (ts ++ rest) →
    t0.rst = false → t0.hostDefined = true → t0.command = some 0x40 →
    (∀ t ∈ ts, t.rst = false ∧ t.hostDefined = true ∧ t.command ≠ some 0x40) →
    ∃ u, Host.Core.run Sys2Proof.core (1 + ts.length) s = .next u ∧ u.crc = crc16 (fedBytes s.crcIn ts)

/-- R117: flipping any single bit of `m || le16(Crc16(m))` is detected. -/
def Obligations.SingleBitFlipBreaksChecksum : Prop :=
  ∀ (m : List Byte) (i : Nat), i < 8 * (m.length + 2) →
    let g := flipBit i (m ++ le16 (crc16 m))
    g.drop m.length ≠ le16 (crc16 (g.take m.length))

/-- A frame with a PDU of at least one byte decodes to its address and PDU, and with any one bit flipped
is a checksum mismatch (R139, read with R132: an empty PDU makes a 3-byte frame, which is TooShort;
log entry 13). -/
def Obligations.FrameRoundTripAndBitFlip : Prop :=
  ∀ (a : Byte) (p : List Byte),
    (p ≠ [] → frameDecode (frameEncode a p) = .ok ⟨a, p⟩) ∧
    (p ≠ [] → ∀ i, i < 8 * (p.length + 3) →
      frameDecode (flipBit i (frameEncode a p)) = .error .checksumMismatch) ∧
    (p = [] → frameDecode (frameEncode a p) = .error .tooShort)

/-- R132, R134 to R136: a sequence of fewer than 4 bytes is TooShort; any other is valid exactly when its
last two bytes, read little-endian, equal `Crc16` of the bytes before them, and then gives its first
byte and the bytes between. -/
def Obligations.FrameDecodeChecksTrailingCrc : Prop :=
  (∀ f : List Byte, f.length < 4 → frameDecode f = .error .tooShort) ∧
  (∀ (a : Byte) (p : List Byte) (lo hi : Byte), 1 ≤ p.length →
    (half hi lo = crc16 (a :: p) → frameDecode (a :: p ++ [lo, hi]) = .ok ⟨a, p⟩) ∧
    (half hi lo ≠ crc16 (a :: p) → frameDecode (a :: p ++ [lo, hi]) = .error .checksumMismatch))

/-! ## PDU codec -/

/-- R153: the coil word depends on the parity of the value only. -/
def Obligations.CoilWordFollowsParity : Prop :=
  ∀ v : Half, (v.toNat % 2 = 1 → coilWord v = 0xFF00) ∧ (v.toNat % 2 = 0 → coilWord v = 0x0000)

/-- R97: the kind of every exception code, and its number in RESULT.EXCKIND. -/
def Obligations.ExceptionKindOfEveryCode : Prop :=
  ∀ c : Byte,
    (c = 1 → excKindOf c = .illegalFunction) ∧ (c = 2 → excKindOf c = .illegalDataAddress) ∧
    (c = 3 → excKindOf c = .illegalDataValue) ∧ (c = 4 → excKindOf c = .slaveDeviceFailure) ∧
    (c = 0 ∨ 4 < c.toNat → excKindOf c = .unknown) ∧
    (excKindOf c).bits.toNat = if 1 ≤ c.toNat ∧ c.toNat ≤ 4 then c.toNat else 5

/-- R92: every request frame is 8 bytes, an address byte, a 5-byte PDU and 2 CRC bytes, and it fits
`txbuf` whole. Its PDU decodes to the request instruction of the function with the operands given. -/
def Obligations.RequestFrameIsEightBytes : Prop :=
  ∀ (a : Byte) (c : FunctionCode) (addr value : Half),
    (encodeRequest c addr value).length = 5 ∧
    (frameEncode a (encodeRequest c addr value)).length = 8 ∧
    (Buffer.ofList (frameEncode a (encodeRequest c addr value))).toList =
      a :: encodeRequest c addr value ++ le16 (crc16 (a :: encodeRequest c addr value)) ∧
    decode .request (encodeRequest c addr value) = .ok (requestOf c addr value)

/-- R171: an echoed write request is Ack, and the address and value fields of the encoding are the
request's address and wire value. -/
def Obligations.EchoedWriteIsAck : Prop :=
  ∀ (c : FunctionCode) (r : Request), c = .writeCoil ∨ c = .writeRegister → r.fc = c.code →
    ∃ a1 a0 v1 v0, encodeRequest c r.addr r.value = [c.code, a1, a0, v1, v0] ∧
      half a1 a0 = r.addr ∧ half v1 v0 = wireValue c r.value ∧
      (c = .writeRegister → half v1 v0 = r.value) ∧ (c = .writeCoil → half v1 v0 = coilWord r.value) ∧
      decodeResponse (encodeRequest c r.addr r.value) r = .ack

/-! ## The transaction commands -/

/-- R187, R188: when not BUSY and with a slave address of 1 to 247, each of EXEC_RC, EXEC_RHR, EXEC_WSC and
EXEC_WSR latches the Request, builds its frame and enters SILENCE, every per-transaction element
re-initialised (R184); nothing else changes, ILLCMD and CMDOVR among it. -/
def Obligations.AcceptedCommandLatchesAndBuilds : Prop :=
  ∀ (c : FunctionCode) (s : State), s.state.busy = false → 1 ≤ s.slave.toNat → s.slave.toNat ≤ 247 →
    exec (commandOf c) s = .next { s with
      state := .silence
      res := Result.cleared
      dataOut := 0x0000
      attempts := 0
      rxBuf := Buffer.zero
      rxLen := 0
      txIdx := 0
      timer := 0x00000000
      req := ⟨s.slave, c.code, s.regAddr, s.value, s.retry, s.timeout, s.silence⟩
      txBuf := Buffer.ofList (frameEncode s.slave (encodeRequest c s.regAddr s.value)) }

/-- R185: with a slave address outside 1 to 247 the command fails at once with ARG_ERROR, ATTEMPTS = 0 and
TXBUF zero. -/
def Obligations.BadSlaveFailsAtOnce : Prop :=
  ∀ (c : FunctionCode) (s : State), s.state.busy = false → s.slave.toNat = 0 ∨ 247 < s.slave.toNat →
    exec (commandOf c) s = .next { s with
      state := .failed
      res := ⟨.argError, .none, false, .none, 0x00⟩
      dataOut := 0x0000
      attempts := 0
      rxBuf := Buffer.zero
      rxLen := 0
      txIdx := 0
      timer := 0x00000000
      req := ⟨s.slave, c.code, s.regAddr, s.value, s.retry, s.timeout, s.silence⟩
      txBuf := Buffer.zero }

/-- R186: a transaction command while BUSY sets CMDOVR and changes nothing else. CMDOVR and ILLCMD stay 1 in
every tick but a reset and one in which the host writes a 1 to their bit of STATUS. -/
def Obligations.BusyCommandOnlySetsCmdovr : Prop :=
  (∀ (c : FunctionCode) (s : State), s.state.busy = true →
    exec (commandOf c) s = .next { s with cmdOvr := true }) ∧
  (∀ s u : State, step s = .next u → s.cmdOvr = true → (s.inputAt 0).rst = false →
    (∀ v, (s.inputAt 0).written 0x04 = some v → v.getLsbD 9 = false) → u.cmdOvr = true) ∧
  (∀ s u : State, step s = .next u → s.illCmd = true → (s.inputAt 0).rst = false →
    (∀ v, (s.inputAt 0).written 0x04 = some v → v.getLsbD 8 = false) → u.illCmd = true)

/-- An accepted command leaves what clearing, latching, running the request PDU of the function with the
latched operands and entering SILENCE leave (R184, R187, R188). That a request PDU can be run as an
instruction is the model's reading, not the spec's (log entry 5). -/
def Obligations.AcceptanceRunsTheRequestPdu : Prop :=
  ∀ (c : FunctionCode) (s : State), s.state.busy = false → 1 ≤ s.slave.toNat → s.slave.toNat ≤ 247 →
    ∃ u, exec (requestOf c s.regAddr s.value) (s.clearTransaction.latch c) = .next u ∧
      exec (commandOf c) s = .next { u with state := .silence }

/-! ## The wire PDUs -/

/-- Each request PDU is framed for the latched slave into `txbuf`, byte for byte as encoded, and changes
nothing else (R130, R151 to R155, R188; log entry 5). -/
def Obligations.RequestPdusFillTxbuf : Prop :=
  ∀ (a v : Half) (s : State),
    exec (.reqReadCoils a v) s =
      .next { s with txBuf := Buffer.ofList (frameEncode s.req.slave (0x01 :: be16 a ++ be16 v)) } ∧
    exec (.reqReadHolding a v) s =
      .next { s with txBuf := Buffer.ofList (frameEncode s.req.slave (0x03 :: be16 a ++ be16 v)) } ∧
    exec (.reqWriteCoil a v) s =
      .next { s with txBuf := Buffer.ofList (frameEncode s.req.slave (0x05 :: be16 a ++ be16 v)) } ∧
    exec (.reqWriteRegister a v) s =
      .next { s with txBuf := Buffer.ofList (frameEncode s.req.slave (0x06 :: be16 a ++ be16 v)) }

/-- R164: a ReadCoils response to a ReadCoils request completes with Bit, bit 0 of the data byte, when its
byte count is 1, and is BYTE_COUNT_MISMATCH otherwise. -/
def Obligations.ReadCoilsResponseGivesBit : Prop :=
  ∀ (bc d : Byte) (s : State), s.state = .await → s.req.fc = 0x01 →
    (bc = 0x01 → exec (.rspReadCoils bc d) s = .next { s with
      state := .completed
      res := ⟨.ok, .bit, false, .none, 0x00⟩
      dataOut := BitVec.ofNat 16 (d.toNat % 2) }) ∧
    (bc ≠ 0x01 → exec (.rspReadCoils bc d) s = .next { s with
      state := .failed
      res := ⟨.byteCountMismatch, .none, false, .none, 0x00⟩
      dataOut := 0x0000 })

/-- R163: a ReadHoldingRegisters response to a ReadHoldingRegisters request completes with Value when its
byte count is 2, and is BYTE_COUNT_MISMATCH otherwise. -/
def Obligations.ReadHoldingResponseGivesValue : Prop :=
  ∀ (bc : Byte) (v : Half) (s : State), s.state = .await → s.req.fc = 0x03 →
    (bc = 0x02 → exec (.rspReadHolding bc v) s = .next { s with
      state := .completed
      res := ⟨.ok, .value, false, .none, 0x00⟩
      dataOut := v }) ∧
    (bc ≠ 0x02 → exec (.rspReadHolding bc v) s = .next { s with
      state := .failed
      res := ⟨.byteCountMismatch, .none, false, .none, 0x00⟩
      dataOut := 0x0000 })

/-- R166: a WriteSingleCoil response to a WriteSingleCoil request completes with Ack when it echoes the
address and the coil word sent, and is ECHO_MISMATCH otherwise. -/
def Obligations.WriteCoilResponseChecksEcho : Prop :=
  ∀ (a cw : Half) (s : State), s.state = .await → s.req.fc = 0x05 →
    (a = s.req.addr → cw = coilWord s.req.value → exec (.rspWriteCoil a cw) s = .next { s with
      state := .completed
      res := ⟨.ok, .ack, false, .none, 0x00⟩
      dataOut := 0x0000 }) ∧
    (a ≠ s.req.addr ∨ cw ≠ coilWord s.req.value → exec (.rspWriteCoil a cw) s = .next { s with
      state := .failed
      res := ⟨.echoMismatch, .none, false, .none, 0x00⟩
      dataOut := 0x0000 })

/-- R165: a WriteSingleRegister response to a WriteSingleRegister request completes with Ack when it echoes
the address and the value, and is ECHO_MISMATCH otherwise. -/
def Obligations.WriteRegisterResponseChecksEcho : Prop :=
  ∀ (a v : Half) (s : State), s.state = .await → s.req.fc = 0x06 →
    (a = s.req.addr → v = s.req.value → exec (.rspWriteRegister a v) s = .next { s with
      state := .completed
      res := ⟨.ok, .ack, false, .none, 0x00⟩
      dataOut := 0x0000 }) ∧
    (a ≠ s.req.addr ∨ v ≠ s.req.value → exec (.rspWriteRegister a v) s = .next { s with
      state := .failed
      res := ⟨.echoMismatch, .none, false, .none, 0x00⟩
      dataOut := 0x0000 })

/-- R223: each of the four exception PDUs, in answer to a request of its own function, ends the transaction
with DEVICE_EXCEPTION, the raw code in EXCCODE and its kind in EXCKIND (R161, R162, R214). -/
def Obligations.ExceptionPduFailsWithItsCode : Prop :=
  ∀ (c : FunctionCode) (x : Byte) (s : State), s.state = .await → s.req.fc = c.code →
    exec (exceptionPdu c x) s = .next { s with
      state := .failed
      res := ⟨.deviceException, .none, false, excKindOf x, x⟩
      dataOut := 0x0000 }

/-- R169: a response or exception PDU of another function than the request's is UNEXPECTED_FUNCTION. -/
def Obligations.OtherFunctionIsUnexpected : Prop :=
  ∀ (i : Instr) (fc : Byte) (rest : List Byte) (s : State), i.port = .response → s.state = .await →
    encode i = fc :: rest → fc ≠ s.req.fc → fc ≠ exceptionOf s.req.fc → s.req.fc.toNat < 128 →
    exec i s = .next { s with
      state := .failed
      res := ⟨.unexpectedFunction, .none, false, .none, 0x00⟩
      dataOut := 0x0000 }

/-- A response or exception PDU outside AWAIT is discarded (R191, R197, R203; the model's reading of them
for a whole PDU, log entry 8). -/
def Obligations.PduOutsideAwaitIsDiscarded : Prop :=
  ∀ (i : Instr) (s : State), i.port = .response → s.state ≠ .await → exec i s = .next s

/-- R210: the evaluation of a complete response, the checksum first, then the address, then
`DecodeResponse` of R160 on the PDU, and what each result does. The model decodes the PDU into an
instruction and runs it; this says that gives what the rule's pseudocode gives. -/
def Obligations.EvaluationFollowsPduCodec : Prop :=
  ∀ (c : FunctionCode) (s : State), s.state = .await → s.req.fc = c.code → 2 ≤ s.rxLen.toNat →
    expectedLen s.req.fc (s.rxBuf.get 1) = some s.rxLen.toNat →
    evaluate s = .next (
      match frameDecode (s.rxBuf.toList.take s.rxLen.toNat) with
      | .error _ => s.attemptFailed .crc
      | .ok f =>
        if f.address ≠ s.req.slave then s.fail .addressMismatch 0x00
        else
          match decodeResponse f.pdu s.req with
          | .exception _ x => s.fail .deviceException x
          | .unexpectedFunction => s.fail .unexpectedFunction 0x00
          | .echoMismatch => s.fail .echoMismatch 0x00
          | .byteCountMismatch => s.fail .byteCountMismatch 0x00
          | .value v => s.complete .value v
          | .bit b => s.complete .bit (if b then 0x0001 else 0x0000)
          | .ack => s.complete .ack 0x0000)

/-! ## One tick -/

/-- A tick whose host access writes a command to CMD runs the decoded instruction, then the sequencer
phase, then the end of the tick: `idle` and the outputs (R180 to R183). The clauses on `inputs`, `ticks` and
the recorded `out` are the model's choice (log entries 1, 3 and 2). -/
def Obligations.StepRunsTheCommand : Prop :=
  ∀ (s : State) (t : TickInput) (rest : List TickInput) (v : Word) (i : Instr),
    s.inputs = t :: rest → t.rst = false → t.host = [⟨32, 0x00, .write v⟩] →
    decode .command (wordBytes v) = .ok i →
    step s = andThen (exec i s) fun s1 =>
      andThen (seqPhase t.rx t.txReady t.ioErr s.idle s1) fun s2 => .next { s2 with
        idle := if s.txValid && t.txReady || t.rx.isSome then 0x00000000 else satInc32 s.idle
        inputs := rest
        ticks := s.ticks + 1
        out := ⟨s.txValid, s.txData, s.state.done, none⟩ }

/-- A tick in AWAIT whose arriving byte completes a valid frame from the right address runs the decoded
response or exception PDU on the state that holds the byte, after the host phase of the tick, whatever
defined host access it has, and then ends: `idle` and the outputs (R180, R181, R182, R204, R210). The clauses
on `inputs`, `ticks` and the recorded `out` are the model's choice (log entries 1, 3 and 2). -/
def Obligations.StepRunsTheResponsePdu : Prop :=
  ∀ (s : State) (t : TickInput) (rest : List TickInput) (b : Byte) (f : Frame) (i : Instr),
    s.inputs = t :: rest → t.rst = false → t.hostDefined = true → t.ioErr = false → t.rx = some b →
    s.state = .await → (s.storeRx b).frameComplete = true →
    frameDecode ((s.storeRx b).rxBuf.first (s.storeRx b).rxLen.toNat) = .ok f →
    f.address = s.req.slave → decode .response f.pdu = .ok i →
    ∃ s1, hostPhase t.host s = .next s1 ∧
      step s = andThen (exec i (s1.storeRx b)) fun u => .next { u with
        idle := 0x00000000
        inputs := rest
        ticks := s.ticks + 1
        out := ⟨false, 0x00, false, hostReadData t.host s⟩ }

/-- R270: in a reset tick every element of R20 takes its reset value, the host access, the byte and the I/O
error of the tick are ignored, and the outputs are low. A host access that R65 leaves undefined is refused in
a reset tick too. The clauses on `inputs`, `ticks` (which a reset does not clear) and the recorded `out` are
the model's choice (log entries 1, 3 and 2). -/
def Obligations.ResetTickResetsEverything : Prop :=
  ∀ (s : State) (t : TickInput) (rest : List TickInput), s.inputs = t :: rest → t.rst = true →
    t.hostDefined = true →
    step s = .next { State.reset with
      inputs := rest, ticks := s.ticks + 1, out := ⟨false, 0x00, false, none⟩ }

/-- R58: the value of every element after reset. -/
def Obligations.ResetValuesAreTheSpecs : Prop :=
  let s := State.reset
  s.state = .idle ∧ s.slave = 0x00 ∧ s.regAddr = 0x0000 ∧ s.value = 0x0000 ∧ s.retry = 0 ∧
  s.timeout = Config.pTimeoutReset ∧ s.silence = Config.pSilenceReset ∧
  s.illCmd = false ∧ s.cmdOvr = false ∧
  s.res = ⟨.none, .none, false, .none, 0x00⟩ ∧ s.dataOut = 0x0000 ∧ s.attempts = 0 ∧
  (∀ i, s.txBuf.get i = 0x00) ∧ s.txIdx = 0 ∧ (∀ i, s.rxBuf.get i = 0x00) ∧ s.rxLen = 0 ∧
  s.timer = 0 ∧ s.idle = 0 ∧ s.req = ⟨0, 0, 0, 0, 0, 0, 0⟩ ∧ s.crc = 0xFFFF ∧ s.crcIn = 0x00

/-- R182: after a tick that is no reset, `idle` is 0 if a TX transfer or an RX arrival occurred, and one
more, saturating, otherwise. -/
def Obligations.IdleCountsQuietTicks : Prop :=
  ∀ s u : State, step s = .next u → (s.inputAt 0).rst = false →
    (s.state = .sent ∧ (s.inputAt 0).txReady = true ∨ (s.inputAt 0).rx ≠ none → u.idle = 0) ∧
    (¬ (s.state = .sent ∧ (s.inputAt 0).txReady = true ∨ (s.inputAt 0).rx ≠ none) →
      u.idle.toNat = min (s.idle.toNat + 1) 0xFFFFFFFF)

/-- R190: `io_err` in a tick in which the core is BUSY after the host phase ends the transaction with
IO_ERROR, whatever else arrives; while not BUSY it has no effect. -/
def Obligations.IoErrorEndsTheTransaction : Prop :=
  ∀ (rx : Option Byte) (txReady : Bool) (idle0 : Word) (s : State),
    (s.state.busy = true → seqPhase rx txReady true idle0 s = .next { s with
      state := .failed
      res := ⟨.ioError, .none, false, .none, 0x00⟩
      dataOut := 0x0000 }) ∧
    (s.state.busy = false → seqPhase rx txReady true idle0 s = .next s ∧
      seqPhase rx txReady false idle0 s = .next s)

/-- R196: in SILENCE, StartAttempt in a tick in which no byte arrives and `idle0 ≥ req_silence` (R195), and
nothing otherwise (R197). -/
def Obligations.AttemptStartsAfterSilence : Prop :=
  ∀ (rx : Option Byte) (txReady : Bool) (idle0 : Word) (s : State), s.state = .silence →
    (rx = none ∧ s.req.silence.toNat ≤ idle0.toNat →
      seqPhase rx txReady false idle0 s = .next { s with
        attempts := s.attempts + 1
        rxBuf := Buffer.zero
        rxLen := 0
        txIdx := 0
        timer := 0x00000000
        state := .sent }) ∧
    (rx ≠ none ∨ idle0.toNat < s.req.silence.toNat → seqPhase rx txReady false idle0 s = .next s)

/-- R201: in SENT a tick with `tx_ready` advances `txidx`, and the eighth byte enters AWAIT with `timer` 0;
without it nothing changes (R200); a byte arriving makes no difference (R203). -/
def Obligations.TransferAdvancesThenAwaits : Prop :=
  ∀ (rx : Option Byte) (idle0 : Word) (s : State), s.state = .sent →
    seqPhase rx false false idle0 s = .next s ∧
    (s.txIdx.toNat < 7 → ∃ u, seqPhase rx true false idle0 s = .next u ∧
      u = { s with txIdx := u.txIdx } ∧ u.txIdx.toNat = s.txIdx.toNat + 1) ∧
    (s.txIdx.toNat = 7 → seqPhase rx true false idle0 s =
      .next { s with txIdx := 8, timer := 0x00000000, state := .await })

/-- R204, R205, R207: in AWAIT an arriving byte is stored at `rxbuf[rxlen]`; a completed frame is evaluated,
deadline or not; otherwise `timer` grows, and the attempt fails when it reaches `req_timeout`. -/
def Obligations.AwaitStoresThenChecksDeadline : Prop :=
  ∀ (rx : Option Byte) (txReady : Bool) (idle0 : Word) (s w : State), s.state = .await →
    (∀ b, rx = some b →
      w = { s with rxBuf := s.rxBuf.set s.rxLen.toNat b, rxLen := s.rxLen + 1 }) →
    (rx = none → w = s) →
    ((2 ≤ w.rxLen.toNat ∧ expectedLen w.req.fc (w.rxBuf.get 1) = some w.rxLen.toNat) →
      seqPhase rx txReady false idle0 s = evaluate w) ∧
    (¬ (2 ≤ w.rxLen.toNat ∧ expectedLen w.req.fc (w.rxBuf.get 1) = some w.rxLen.toNat) →
      (w.timer + 1).toNat < w.req.timeout.toNat →
      seqPhase rx txReady false idle0 s = .next { w with timer := w.timer + 1 }) ∧
    (¬ (2 ≤ w.rxLen.toNat ∧ expectedLen w.req.fc (w.rxBuf.get 1) = some w.rxLen.toNat) →
      w.req.timeout.toNat ≤ (w.timer + 1).toNat →
      seqPhase rx txReady false idle0 s =
        .next ({ w with timer := w.timer + 1 }.attemptFailed .deadline))

/-- R221: with budget left an attempt's failure re-enters SILENCE and changes nothing else; with none left the
transaction fails with TIMEOUT, LASTCRC telling the cause (R224). -/
def Obligations.FailedAttemptRetriesWithinBudget : Prop :=
  ∀ (cause : Cause) (s : State),
    (s.attempts.toNat < 1 + s.req.retry.toNat →
      s.attemptFailed cause = { s with state := .silence }) ∧
    (1 + s.req.retry.toNat ≤ s.attempts.toNat →
      s.attemptFailed cause = { s with
        state := .failed
        res := ⟨.timeout, .none, (match cause with | .crc => true | .deadline => false), .none, 0x00⟩
        dataOut := 0x0000 })

/-- R181: the outputs of every tick that is no reset are functions of the state at its start, and a
HostRead returns the register at its start (R63). They are read in the model's record of them, `out` (log
entry 2). -/
def Obligations.OutputsComeFromTheStart : Prop :=
  ∀ s u : State, step s = .next u → (s.inputAt 0).rst = false →
    (u.out.txValid = true ↔ s.state = .sent) ∧
    (s.state = .sent → u.out.txData = s.txBuf.get s.txIdx.toNat) ∧
    (s.state ≠ .sent → u.out.txData = 0x00) ∧
    (u.out.done = true ↔ s.state = .completed ∨ s.state = .failed) ∧
    (∀ off, (s.inputAt 0).host = [⟨32, off, .read⟩] → u.out.readData = some (hostRead off s))

/-! ## The host register interface -/

/-- R26: the fields of STATUS, that every other bit reads 0, what a write clears, and the reset value. -/
def Obligations.StatusWordHoldsItsFields : Prop :=
  (∀ s : State, (hostRead 0x04 s).toNat =
    (if s.state = .silence ∨ s.state = .sent ∨ s.state = .await then 1 else 0) +
    (if s.state = .completed ∨ s.state = .failed then 2 else 0) +
    16 * (match s.state with
      | .idle => 0 | .silence => 1 | .sent => 2 | .await => 3 | .completed => 4 | .failed => 5) +
    (if s.illCmd then 256 else 0) + (if s.cmdOvr then 512 else 0)) ∧
  (∀ (v : Word) (s : State), hostWrite 0x04 v s = .next { s with
    illCmd := if v.getLsbD 8 then false else s.illCmd
    cmdOvr := if v.getLsbD 9 then false else s.cmdOvr }) ∧
  hostRead 0x04 State.reset = 0x00000000

/-- R33: the fields of RESULT, with the codes of R241, and that every other bit reads 0. -/
def Obligations.ResultWordHoldsItsFields : Prop :=
  ∀ s : State, (hostRead 0x20 s).toNat =
    (match s.res.code with
      | .none => 0 | .ok => 1 | .timeout => 2 | .addressMismatch => 3 | .deviceException => 4
      | .unexpectedFunction => 5 | .echoMismatch => 6 | .byteCountMismatch => 7 | .ioError => 8
      | .argError => 9) +
    16 * (match s.res.outcome with | .none => 0 | .value => 1 | .bit => 2 | .ack => 3) +
    (if s.res.lastCrc then 64 else 0) +
    256 * (match s.res.excKind with
      | .none => 0 | .illegalFunction => 1 | .illegalDataAddress => 2 | .illegalDataValue => 3
      | .slaveDeviceFailure => 4 | .unknown => 5) +
    65536 * s.res.excCode.toNat

/-- R38, R72: byte `4k + j` of a buffer is bits `[8j+7 : 8j]` of word `k`. -/
def Obligations.BufferWordsPackLittleEndian : Prop :=
  ∀ (s : State) (j : Nat), j < 4 →
    (hostRead 0x30 s).extractLsb' (8 * j) 8 = s.txBuf.get j ∧
    (hostRead 0x34 s).extractLsb' (8 * j) 8 = s.txBuf.get (4 + j) ∧
    (hostRead 0x38 s).extractLsb' (8 * j) 8 = s.rxBuf.get j ∧
    (hostRead 0x3C s).extractLsb' (8 * j) 8 = s.rxBuf.get (4 + j)

/-- The other registers read their field, zero-extended; CMD and the reserved offsets read 0 (R24, R25,
R27 to R32, R35 to R37, R40, R41). -/
def Obligations.PlainRegistersReadTheirField : Prop :=
  ∀ s : State,
    hostRead 0x00 s = 0 ∧ (hostRead 0x08 s).toNat = s.slave.toNat ∧
    (hostRead 0x0C s).toNat = s.regAddr.toNat ∧ (hostRead 0x10 s).toNat = s.value.toNat ∧
    (hostRead 0x14 s).toNat = s.retry.toNat ∧ hostRead 0x18 s = s.timeout ∧
    hostRead 0x1C s = s.silence ∧ (hostRead 0x24 s).toNat = s.dataOut.toNat ∧
    (hostRead 0x28 s).toNat = s.attempts.toNat ∧ (hostRead 0x2C s).toNat = s.rxLen.toNat ∧
    (hostRead 0x40 s).toNat = s.crcIn.toNat ∧ (hostRead 0x44 s).toNat = s.crc.toNat ∧
    (∀ off : Byte, 0x48 ≤ off.toNat → hostRead off s = 0)

/-- R64: what a write at every offset that is a multiple of 4 does. And a tick that is no reset leaves each of
SLAVE, REGADDR, VALUE, RETRY, TIMEOUT, SILENCE and CRC_IN as it was unless its host access writes it, and
then it holds exactly the bits written (R42, R180). -/
def Obligations.HostWriteFollowsTheMap : Prop :=
  (∀ (v : Word) (s : State),
    hostWrite 0x00 v s = commandWrite v s ∧
    hostWrite 0x04 v s = .next { s with
      illCmd := if v.getLsbD 8 then false else s.illCmd
      cmdOvr := if v.getLsbD 9 then false else s.cmdOvr } ∧
    hostWrite 0x08 v s = .next { s with slave := v.extractLsb' 0 8 } ∧
    hostWrite 0x0C v s = .next { s with regAddr := v.extractLsb' 0 16 } ∧
    hostWrite 0x10 v s = .next { s with value := v.extractLsb' 0 16 } ∧
    hostWrite 0x14 v s = .next { s with retry := v.extractLsb' 0 4 } ∧
    hostWrite 0x18 v s = .next { s with timeout := v } ∧
    hostWrite 0x1C v s = .next { s with silence := v } ∧
    hostWrite 0x40 v s = .next { s with crcIn := v.extractLsb' 0 8 } ∧
    (∀ off : Byte, off.toNat % 4 = 0 → 0x20 ≤ off.toNat → off ≠ 0x40 → hostWrite off v s = .next s)) ∧
  (∀ s u : State, step s = .next u → (s.inputAt 0).rst = false →
    let w (off : Byte) : Option Word := (s.inputAt 0).written off
    u.slave = ((w 0x08).map (·.extractLsb' 0 8)).getD s.slave ∧
    u.regAddr = ((w 0x0C).map (·.extractLsb' 0 16)).getD s.regAddr ∧
    u.value = ((w 0x10).map (·.extractLsb' 0 16)).getD s.value ∧
    u.retry = ((w 0x14).map (·.extractLsb' 0 4)).getD s.retry ∧
    u.timeout = (w 0x18).getD s.timeout ∧
    u.silence = (w 0x1C).getD s.silence ∧
    u.crcIn = ((w 0x40).map (·.extractLsb' 0 8)).getD s.crcIn)

/-- R65: a tick is refused exactly when it has a host access that is not 32 bits wide or not at a multiple of
4, or more than one, a reset tick too; every other tick gives a next state. -/
def Obligations.OnlyUndefinedAccessesAreRefused : Prop :=
  ∀ s : State,
    ((∃ u, step s = .next u) ↔
      (s.inputAt 0).host = [] ∨
      ∃ a, (s.inputAt 0).host = [a] ∧ a.bits = 32 ∧ a.off.toNat % 4 = 0) ∧
    (2 ≤ (s.inputAt 0).host.length → step s = .refused .severalHostAccesses) ∧
    ((∃ a, (s.inputAt 0).host = [a] ∧ (a.bits ≠ 32 ∨ a.off.toNat % 4 ≠ 0)) →
      step s = .refused .undefinedHostAccess)

/-- R63: a HostRead returns the register at the start of the tick and has no other effect on any state. What
it returned stands in the model's record of the tick, `out` (log entry 2). -/
def Obligations.ReadsHaveNoSideEffect : Prop :=
  ∀ (s : State) (t : TickInput) (off : Byte), t.rst = false → off.toNat % 4 = 0 →
    tick { t with host := [⟨32, off, .read⟩] } s =
      andThen (tick { t with host := [] } s) fun u =>
        .next { u with out := { u.out with readData := some (hostRead off s) } }

/-! ## Whole-machine rules -/

/-- The invariant holds after reset (R58). -/
def Obligations.ResetMeetsTheInvariant : Prop := State.reset.Inv

/-- Every tick keeps the invariant: `rxbuf` never overflows, at most `1 + req_retry` attempts, one frame
per transaction, RESULT and DATA_OUT as their state allows. -/
def Obligations.EveryStepKeepsTheInvariant : Prop :=
  ∀ s u : State, s.Inv → step s = .next u → u.Inv

/-- R43: the latched Request changes in no tick but a reset and one whose CMD write is accepted, and then it is
the copy of the configuration registers and the command code. -/
def Obligations.RequestChangesOnlyOnAcceptance : Prop :=
  ∀ s u : State, step s = .next u → (s.inputAt 0).rst = false →
    (∀ c : FunctionCode, s.state.busy = false → (s.inputAt 0).command = some c.code →
      u.req = ⟨s.slave, c.code, s.regAddr, s.value, s.retry, s.timeout, s.silence⟩) ∧
    ((s.state.busy = true ∨ ∀ c : FunctionCode, (s.inputAt 0).command ≠ some c.code) → u.req = s.req)

/-- R41: CRC_VAL reads `crc`, which is written only by CRC_INIT, CRC_FEED and reset, to 0xFFFF. -/
def Obligations.CrcChangesOnlyByItsCommands : Prop :=
  (∀ s : State, (hostRead 0x44 s).toNat = s.crc.toNat) ∧
  ∀ s u : State, step s = .next u →
    ((s.inputAt 0).rst = true → u.crc = 0xFFFF) ∧
    ((s.inputAt 0).rst = false → (s.inputAt 0).command = some 0x40 → u.crc = 0xFFFF) ∧
    ((s.inputAt 0).rst = false → (s.inputAt 0).command = some 0x41 → u.crc = crcStep s.crc s.crcIn) ∧
    ((s.inputAt 0).rst = false → (s.inputAt 0).command ≠ some 0x40 →
      (s.inputAt 0).command ≠ some 0x41 → u.crc = s.crc)

/-- R116: the standalone CRC unit and the sequencer are independent. Whatever `crc` and CRC_IN hold, a tick
does the same to everything else (a HostRead of them apart); the sequencer phase leaves both as they were;
and a CRC command leaves everything but `crc` as it was, also while BUSY. -/
def Obligations.CrcUnitIsIndependent : Prop :=
  (∀ (s u : State) (c : Half) (b : Byte), step s = .next u →
    ∃ w, step { s with crc := c, crcIn := b } = .next w ∧
      u = { w with crc := u.crc, crcIn := u.crcIn, out := { w.out with readData := u.out.readData } }) ∧
  (∀ (rx : Option Byte) (txReady ioErr : Bool) (idle0 : Word) (s u : State),
    seqPhase rx txReady ioErr idle0 s = .next u → u.crc = s.crc ∧ u.crcIn = s.crcIn) ∧
  (∀ s : State, (∃ c, exec .crcInit s = .next { s with crc := c }) ∧
    (∃ c, exec .crcFeed s = .next { s with crc := c }))

/-- While BUSY, the configuration registers do not affect the transaction: a tick does the same to
everything else whatever they hold (R43, R280), a HostRead of them apart. -/
def Obligations.BusyCoreIgnoresConfiguration : Prop :=
  ∀ (s u : State) (a : Byte) (b v : Half) (r : BitVec 4) (n q : Word), s.state.busy = true →
    step s = .next u → (s.inputAt 0).rst = false →
    ∃ w, step { s with slave := a, regAddr := b, value := v, retry := r, timeout := n, silence := q } =
        .next w ∧
      u = { w with
        slave := u.slave, regAddr := u.regAddr, value := u.value, retry := u.retry
        timeout := u.timeout, silence := u.silence
        out := { w.out with readData := u.out.readData } }

/-- No abort: a tick that leaves BUSY is a reset, or has an I/O error, or starts in AWAIT and either
completes a response or reaches the deadline (R226). -/
def Obligations.TransactionEndsOnlyByOutcome : Prop :=
  ∀ s u : State, step s = .next u → s.state.busy = true → u.state.busy = false →
    (s.inputAt 0).rst = true ∨ (s.inputAt 0).ioErr = true ∨
    (s.state = .await ∧
      ((s.receive (s.inputAt 0).rx).frameComplete = true ∨ s.req.timeout ≤ s.timer + 1))

/-- R225: a tick that goes from AWAIT back to SILENCE has passed the deadline without a complete frame, or has
completed a frame whose checksum fails; no other outcome leads to a retry. -/
def Obligations.OnlyTimeoutAndChecksumRetry : Prop :=
  ∀ s u : State, step s = .next u → s.state = .await → u.state = .silence →
    let w := s.receive (s.inputAt 0).rx
    s.attempts.toNat < 1 + s.req.retry.toNat ∧
    ((w.frameComplete = false ∧ s.req.timeout ≤ s.timer + 1) ∨
     (w.frameComplete = true ∧ ∃ e, frameDecode (w.rxBuf.toList.take w.rxLen.toNat) = .error e))

/-! ## Runs -/

/-- A stalled transmitter hangs the core: as long as `tx_ready` is 0, with no I/O error and no reset, it
stays in SENT offering the same byte, however long (R283). -/
def Obligations.StalledTransmitterHangs : Prop :=
  ∀ (k : Nat) (s : State), s.state = .sent →
    (∀ j, j < k → (s.inputAt j).calm = true ∧ (s.inputAt j).txReady = false) →
    ∃ u, Host.Core.run Sys2Proof.core k s = .next u ∧ u.state = .sent ∧
      u.txData = s.txData ∧ u.txBuf = s.txBuf ∧ u.txIdx = s.txIdx ∧ u.req = s.req

/-- A line that never falls idle hangs the core: with bytes arriving at any intervals of at most `req_silence`
ticks, the first before `idle` reaches `req_silence`, it stays in SILENCE and starts no attempt, however long
(R286). Each tick has an arrival in it or at most `req_silence` ticks before it, or comes so early that `idle`
has not reached `req_silence`. -/
def Obligations.BusyLineHangs : Prop :=
  ∀ (k : Nat) (s : State), s.state = .silence →
    (∀ j, j < k → (s.inputAt j).calm = true ∧
      (s.idle.toNat + j < s.req.silence.toNat ∨
        ∃ i, i ≤ j ∧ j ≤ i + s.req.silence.toNat ∧ (s.inputAt i).rx ≠ none)) →
    ∃ u, Host.Core.run Sys2Proof.core k s = .next u ∧ u.state = .silence ∧
      u.attempts = s.attempts ∧ u.req = s.req

/-- Eight ready ticks in SENT put the eight bytes of `txbuf` on the line, index 0 first, and enter AWAIT with
`timer` 0 (R200, R201, R76). The bytes are read in the model's record of the outputs (log entry 2). -/
def Obligations.EightReadyTicksSendTheFrame : Prop :=
  ∀ s : State, s.state = .sent → s.txIdx = 0 →
    (∀ j, j < 8 → (s.inputAt j).calm = true ∧ (s.inputAt j).txReady = true) →
    (∀ j, j < 8 → ∃ u, Host.Core.run Sys2Proof.core (j + 1) s = .next u ∧
      u.out.txValid = true ∧ u.out.txData = s.txBuf.get j) ∧
    ∃ u, Host.Core.run Sys2Proof.core 8 s = .next u ∧ u.state = .await ∧ u.timer = 0 ∧
      u.txBuf = s.txBuf ∧ u.req = s.req ∧ u.attempts = s.attempts

/-- A response that never comes times out after exactly the configured deadline: `max(req_timeout, 1)` ticks
after the last request byte, no earlier (R205, R206). Then the next attempt waits in SILENCE if the
budget allows it, and the transaction fails with TIMEOUT otherwise (R213, R221). -/
def Obligations.SilentSlaveTimesOutExactly : Prop :=
  ∀ (s : State) (n : Nat), s.Inv → s.state = .await → s.timer = 0 → n = max s.req.timeout.toNat 1 →
    (∀ j, j < n → (s.inputAt j).calm = true ∧ (s.inputAt j).rx = none) →
    (∀ j, j < n → ∃ u, Host.Core.run Sys2Proof.core j s = .next u ∧ u.state = .await) ∧
    ∃ u, Host.Core.run Sys2Proof.core n s = .next u ∧
      (s.attempts.toNat < 1 + s.req.retry.toNat → u.state = .silence ∧ u.res = s.res) ∧
      (s.attempts.toNat = 1 + s.req.retry.toNat →
        u.state = .failed ∧ u.res = ⟨.timeout, .none, false, .none, 0x00⟩ ∧ u.dataOut = 0) ∧
      u.attempts = s.attempts ∧ u.txBuf = s.txBuf ∧ u.rxBuf = s.rxBuf ∧ u.rxLen = s.rxLen

/-- A response delivered before the deadline, however its bytes are spaced (R287), is received whole and
classified as `DecodeResponse` classifies its PDU: for every PDU of the length the request's function and the
PDU's first byte give, framed for the request's slave (R94, R204, R207, R210, R215). `gaps` says what arrives in
each tick before the one that delivers the last byte. -/
def Obligations.DeliveredResponseIsClassified : Prop :=
  ∀ (c : FunctionCode) (first : Byte) (data : List Byte) (gaps : List (Option Byte)) (last : Byte) (s : State),
    s.state = .await → s.req.fc = c.code → s.rxLen = 0 → s.rxBuf = Buffer.zero →
    1 + data.length = responsePduLength c first →
    gaps.filterMap id ++ [last] = frameEncode s.req.slave (first :: data) →
    s.timer.toNat + gaps.length < s.req.timeout.toNat →
    (∀ j, j < gaps.length + 1 → (s.inputAt j).calm = true ∧
      some (s.inputAt j).rx = (gaps ++ [some last])[j]?) →
    ∃ u, Host.Core.run Sys2Proof.core (gaps.length + 1) s = .next u ∧
      u.rxLen.toNat = data.length + 4 ∧
      u.rxBuf.toList.take (data.length + 4) = frameEncode s.req.slave (first :: data) ∧
      u.state = (s.settle (decodeResponse (first :: data) s.req)).state ∧
      u.res = (s.settle (decodeResponse (first :: data) s.req)).res ∧
      u.dataOut = (s.settle (decodeResponse (first :: data) s.req)).dataOut ∧
      u.state.done = true
end

