-- ==== Sys2Proof/Laws/Codec.lean ====
section
/-! SUPPORT. Byte order, function codes, the CRC register over appended sequences, and the frame buffers. -/

namespace Sys2Proof

/-- Splitting a 16-bit field and joining it again gives it back (20_memory.md R70). -/
@[simp] theorem half_split (v : Half) : half (v.extractLsb' 8 8) (v.extractLsb' 0 8) = v := by
  apply BitVec.eq_of_getLsbD_eq
  intro i hi
  simp only [half, BitVec.getLsbD_append, BitVec.getLsbD_extractLsb']
  by_cases h : i < 8
  · simp [h]
  · have h8 : i - 8 < 8 := by omega
    have : 8 + (i - 8) = i := by omega
    simp [h, h8, this]

@[simp] theorem half_hi (hi lo : Byte) : (half hi lo).extractLsb' 8 8 = hi := by
  apply BitVec.eq_of_getLsbD_eq
  intro i h
  simp only [half, BitVec.getLsbD_extractLsb', BitVec.getLsbD_append]
  simp [h]

@[simp] theorem half_lo (hi lo : Byte) : (half hi lo).extractLsb' 0 8 = lo := by
  apply BitVec.eq_of_getLsbD_eq
  intro i h
  simp only [half, BitVec.getLsbD_extractLsb', BitVec.getLsbD_append]
  simp [h]

/-- `be16` of two joined bytes is the two bytes (20_memory.md R70). -/
@[simp] theorem be16_half (hi lo : Byte) : be16 (half hi lo) = [hi, lo] := by
  simp [be16]

/-- `le16` of two joined bytes is the two bytes, low first (20_memory.md R71). -/
@[simp] theorem le16_half (hi lo : Byte) : le16 (half hi lo) = [lo, hi] := by
  simp [le16]

@[simp] theorem be16_length (v : Half) : (be16 v).length = 2 := rfl

@[simp] theorem le16_length (v : Half) : (le16 v).length = 2 := rfl

/-- Two joined pairs are equal exactly when the bytes are. -/
theorem half_inj {a b c d : Byte} : half a b = half c d ↔ a = c ∧ b = d := by
  constructor
  · intro h
    have h1 := congrArg (·.extractLsb' 8 8) h
    have h2 := congrArg (·.extractLsb' 0 8) h
    simpa using And.intro h1 h2
  · rintro ⟨rfl, rfl⟩; rfl

/-- The four function codes are the bytes that stand for one (30_encoding.md R83). -/
@[simp] theorem FunctionCode.ofByte_code (c : FunctionCode) : FunctionCode.ofByte c.code = some c := by
  cases c <;> decide

theorem FunctionCode.ofByte_eq_some {b : Byte} {c : FunctionCode} :
    FunctionCode.ofByte b = some c ↔ b = c.code := by
  constructor
  · intro h
    unfold FunctionCode.ofByte at h
    split at h
    · cases h; assumption
    split at h
    · cases h; assumption
    split at h
    · cases h; assumption
    split at h
    · cases h; assumption
    · cases h
  · rintro rfl; simp

theorem FunctionCode.code_inj {c d : FunctionCode} : c.code = d.code ↔ c = d := by
  cases c <;> cases d <;> decide

namespace Machine

/-! ### The CRC register -/

/-- The CRC over an appended sequence continues from the register (40_crc.md R112). -/
@[simp] theorem crcFrom_append (c : Half) (m n : List Byte) :
    crcFrom c (m ++ n) = crcFrom (crcFrom c m) n := by
  induction m generalizing c with
  | nil => rfl
  | cons b m ih => simp [crcFrom, ih]

/-! ### Frames -/

@[simp] theorem frameEncode_length (a : Byte) (p : List Byte) :
    (frameEncode a p).length = p.length + 3 := by
  simp [frameEncode]

/-- Every encoded request is five bytes (30_encoding.md R84 to R86). -/
@[simp] theorem encodeRequest_length (c : FunctionCode) (addr value : Half) :
    (encodeRequest c addr value).length = 5 := by
  cases c <;> rfl

/-! ### Buffers -/

@[simp] theorem Buffer.get_zero (i : Nat) : Buffer.zero.get i = 0x00 := by
  unfold Buffer.get
  split <;> rfl

theorem Buffer.get_of_le (b : Buffer) {i : Nat} (h : 8 ≤ i) : b.get i = 0x00 := by
  obtain ⟨k, rfl⟩ := Nat.exists_eq_add_of_le' h
  rfl

/-- A byte just stored reads back. -/
theorem Buffer.get_set_same (b : Buffer) {i : Nat} (h : i < 8) (v : Byte) : (b.set i v).get i = v := by
  interval_cases i <;> rfl

/-- Storing a byte leaves every other byte alone. -/
theorem Buffer.get_set_ne (b : Buffer) {i j : Nat} (h : i ≠ j) (v : Byte) :
    (b.set i v).get j = b.get j := by
  rcases Nat.lt_or_ge i 8 with hi | hi
  · rcases Nat.lt_or_ge j 8 with hj | hj
    · interval_cases i <;> interval_cases j <;> first | rfl | exact absurd rfl h
    · rw [Buffer.get_of_le _ hj, Buffer.get_of_le _ hj]
  · obtain ⟨k, rfl⟩ := Nat.exists_eq_add_of_le' hi
    rfl

theorem Buffer.toList_length (b : Buffer) : b.toList.length = 8 := rfl

/-- Byte `i` of a buffer's list is byte `i` of the buffer. -/
theorem Buffer.getD_toList (b : Buffer) (i : Nat) : b.toList.getD i 0x00 = b.get i := by
  rcases Nat.lt_or_ge i 8 with hi | hi
  · interval_cases i <;> rfl
  · rw [Buffer.get_of_le _ hi]
    exact List.getD_eq_default _ _ (by simpa [Buffer.toList_length] using hi)

/-- A buffer made of a byte sequence holds it from index 0 on. -/
theorem Buffer.get_ofList (m : List Byte) {i : Nat} (h : i < 8) : (Buffer.ofList m).get i = m.getD i 0x00 := by
  interval_cases i <;> rfl

/-- A sequence of eight bytes goes through a buffer unchanged. -/
theorem Buffer.toList_ofList {m : List Byte} (h : m.length = 8) : (Buffer.ofList m).toList = m := by
  match m, h with
  | [_, _, _, _, _, _, _, _], _ => rfl

end Machine

end Sys2Proof
end

