-- ==== Sys2Proof/Laws/State.lean ====
section
/-! SUPPORT. Each field after each named update: one lemma a field, so that no proof unfolds an update. -/

namespace Sys2Proof.Machine

/-! ### `fail` -/

@[simp] theorem State.fail_state (code : ResultCode) (x : Byte) (s : State) :
    (s.fail code x).state = SeqState.failed := rfl
@[simp] theorem State.fail_slave (code : ResultCode) (x : Byte) (s : State) :
    (s.fail code x).slave = s.slave := rfl
@[simp] theorem State.fail_regAddr (code : ResultCode) (x : Byte) (s : State) :
    (s.fail code x).regAddr = s.regAddr := rfl
@[simp] theorem State.fail_value (code : ResultCode) (x : Byte) (s : State) :
    (s.fail code x).value = s.value := rfl
@[simp] theorem State.fail_retry (code : ResultCode) (x : Byte) (s : State) :
    (s.fail code x).retry = s.retry := rfl
@[simp] theorem State.fail_timeout (code : ResultCode) (x : Byte) (s : State) :
    (s.fail code x).timeout = s.timeout := rfl
@[simp] theorem State.fail_silence (code : ResultCode) (x : Byte) (s : State) :
    (s.fail code x).silence = s.silence := rfl
@[simp] theorem State.fail_illCmd (code : ResultCode) (x : Byte) (s : State) :
    (s.fail code x).illCmd = s.illCmd := rfl
@[simp] theorem State.fail_cmdOvr (code : ResultCode) (x : Byte) (s : State) :
    (s.fail code x).cmdOvr = s.cmdOvr := rfl
@[simp] theorem State.fail_res (code : ResultCode) (x : Byte) (s : State) :
    (s.fail code x).res = (if code = .deviceException then (⟨code, .none, false, excKindOf x, x⟩ : Result) else ⟨code, .none, false, .none, 0x00⟩) := rfl
@[simp] theorem State.fail_dataOut (code : ResultCode) (x : Byte) (s : State) :
    (s.fail code x).dataOut = 0x0000 := rfl
@[simp] theorem State.fail_attempts (code : ResultCode) (x : Byte) (s : State) :
    (s.fail code x).attempts = s.attempts := rfl
@[simp] theorem State.fail_txBuf (code : ResultCode) (x : Byte) (s : State) :
    (s.fail code x).txBuf = s.txBuf := rfl
@[simp] theorem State.fail_txIdx (code : ResultCode) (x : Byte) (s : State) :
    (s.fail code x).txIdx = s.txIdx := rfl
@[simp] theorem State.fail_rxBuf (code : ResultCode) (x : Byte) (s : State) :
    (s.fail code x).rxBuf = s.rxBuf := rfl
@[simp] theorem State.fail_rxLen (code : ResultCode) (x : Byte) (s : State) :
    (s.fail code x).rxLen = s.rxLen := rfl
@[simp] theorem State.fail_timer (code : ResultCode) (x : Byte) (s : State) :
    (s.fail code x).timer = s.timer := rfl
@[simp] theorem State.fail_idle (code : ResultCode) (x : Byte) (s : State) :
    (s.fail code x).idle = s.idle := rfl
@[simp] theorem State.fail_req (code : ResultCode) (x : Byte) (s : State) :
    (s.fail code x).req = s.req := rfl
@[simp] theorem State.fail_crc (code : ResultCode) (x : Byte) (s : State) :
    (s.fail code x).crc = s.crc := rfl
@[simp] theorem State.fail_crcIn (code : ResultCode) (x : Byte) (s : State) :
    (s.fail code x).crcIn = s.crcIn := rfl
@[simp] theorem State.fail_inputs (code : ResultCode) (x : Byte) (s : State) :
    (s.fail code x).inputs = s.inputs := rfl
@[simp] theorem State.fail_ticks (code : ResultCode) (x : Byte) (s : State) :
    (s.fail code x).ticks = s.ticks := rfl
@[simp] theorem State.fail_out (code : ResultCode) (x : Byte) (s : State) :
    (s.fail code x).out = s.out := rfl

/-! ### `complete` -/

@[simp] theorem State.complete_state (k : OutcomeKind) (d : Half) (s : State) :
    (s.complete k d).state = SeqState.completed := rfl
@[simp] theorem State.complete_slave (k : OutcomeKind) (d : Half) (s : State) :
    (s.complete k d).slave = s.slave := rfl
@[simp] theorem State.complete_regAddr (k : OutcomeKind) (d : Half) (s : State) :
    (s.complete k d).regAddr = s.regAddr := rfl
@[simp] theorem State.complete_value (k : OutcomeKind) (d : Half) (s : State) :
    (s.complete k d).value = s.value := rfl
@[simp] theorem State.complete_retry (k : OutcomeKind) (d : Half) (s : State) :
    (s.complete k d).retry = s.retry := rfl
@[simp] theorem State.complete_timeout (k : OutcomeKind) (d : Half) (s : State) :
    (s.complete k d).timeout = s.timeout := rfl
@[simp] theorem State.complete_silence (k : OutcomeKind) (d : Half) (s : State) :
    (s.complete k d).silence = s.silence := rfl
@[simp] theorem State.complete_illCmd (k : OutcomeKind) (d : Half) (s : State) :
    (s.complete k d).illCmd = s.illCmd := rfl
@[simp] theorem State.complete_cmdOvr (k : OutcomeKind) (d : Half) (s : State) :
    (s.complete k d).cmdOvr = s.cmdOvr := rfl
@[simp] theorem State.complete_res (k : OutcomeKind) (d : Half) (s : State) :
    (s.complete k d).res = (⟨.ok, k, false, .none, 0x00⟩ : Result) := rfl
@[simp] theorem State.complete_dataOut (k : OutcomeKind) (d : Half) (s : State) :
    (s.complete k d).dataOut = d := rfl
@[simp] theorem State.complete_attempts (k : OutcomeKind) (d : Half) (s : State) :
    (s.complete k d).attempts = s.attempts := rfl
@[simp] theorem State.complete_txBuf (k : OutcomeKind) (d : Half) (s : State) :
    (s.complete k d).txBuf = s.txBuf := rfl
@[simp] theorem State.complete_txIdx (k : OutcomeKind) (d : Half) (s : State) :
    (s.complete k d).txIdx = s.txIdx := rfl
@[simp] theorem State.complete_rxBuf (k : OutcomeKind) (d : Half) (s : State) :
    (s.complete k d).rxBuf = s.rxBuf := rfl
@[simp] theorem State.complete_rxLen (k : OutcomeKind) (d : Half) (s : State) :
    (s.complete k d).rxLen = s.rxLen := rfl
@[simp] theorem State.complete_timer (k : OutcomeKind) (d : Half) (s : State) :
    (s.complete k d).timer = s.timer := rfl
@[simp] theorem State.complete_idle (k : OutcomeKind) (d : Half) (s : State) :
    (s.complete k d).idle = s.idle := rfl
@[simp] theorem State.complete_req (k : OutcomeKind) (d : Half) (s : State) :
    (s.complete k d).req = s.req := rfl
@[simp] theorem State.complete_crc (k : OutcomeKind) (d : Half) (s : State) :
    (s.complete k d).crc = s.crc := rfl
@[simp] theorem State.complete_crcIn (k : OutcomeKind) (d : Half) (s : State) :
    (s.complete k d).crcIn = s.crcIn := rfl
@[simp] theorem State.complete_inputs (k : OutcomeKind) (d : Half) (s : State) :
    (s.complete k d).inputs = s.inputs := rfl
@[simp] theorem State.complete_ticks (k : OutcomeKind) (d : Half) (s : State) :
    (s.complete k d).ticks = s.ticks := rfl
@[simp] theorem State.complete_out (k : OutcomeKind) (d : Half) (s : State) :
    (s.complete k d).out = s.out := rfl

/-! ### `retryAttempt` -/

@[simp] theorem State.retryAttempt_state (s : State) :
    s.retryAttempt.state = SeqState.silence := rfl
@[simp] theorem State.retryAttempt_slave (s : State) : s.retryAttempt.slave = s.slave := rfl
@[simp] theorem State.retryAttempt_regAddr (s : State) : s.retryAttempt.regAddr = s.regAddr := rfl
@[simp] theorem State.retryAttempt_value (s : State) : s.retryAttempt.value = s.value := rfl
@[simp] theorem State.retryAttempt_retry (s : State) : s.retryAttempt.retry = s.retry := rfl
@[simp] theorem State.retryAttempt_timeout (s : State) : s.retryAttempt.timeout = s.timeout := rfl
@[simp] theorem State.retryAttempt_silence (s : State) : s.retryAttempt.silence = s.silence := rfl
@[simp] theorem State.retryAttempt_illCmd (s : State) : s.retryAttempt.illCmd = s.illCmd := rfl
@[simp] theorem State.retryAttempt_cmdOvr (s : State) : s.retryAttempt.cmdOvr = s.cmdOvr := rfl
@[simp] theorem State.retryAttempt_res (s : State) : s.retryAttempt.res = s.res := rfl
@[simp] theorem State.retryAttempt_dataOut (s : State) : s.retryAttempt.dataOut = s.dataOut := rfl
@[simp] theorem State.retryAttempt_attempts (s : State) :
    s.retryAttempt.attempts = s.attempts := rfl
@[simp] theorem State.retryAttempt_txBuf (s : State) : s.retryAttempt.txBuf = s.txBuf := rfl
@[simp] theorem State.retryAttempt_txIdx (s : State) : s.retryAttempt.txIdx = s.txIdx := rfl
@[simp] theorem State.retryAttempt_rxBuf (s : State) : s.retryAttempt.rxBuf = s.rxBuf := rfl
@[simp] theorem State.retryAttempt_rxLen (s : State) : s.retryAttempt.rxLen = s.rxLen := rfl
@[simp] theorem State.retryAttempt_timer (s : State) : s.retryAttempt.timer = s.timer := rfl
@[simp] theorem State.retryAttempt_idle (s : State) : s.retryAttempt.idle = s.idle := rfl
@[simp] theorem State.retryAttempt_req (s : State) : s.retryAttempt.req = s.req := rfl
@[simp] theorem State.retryAttempt_crc (s : State) : s.retryAttempt.crc = s.crc := rfl
@[simp] theorem State.retryAttempt_crcIn (s : State) : s.retryAttempt.crcIn = s.crcIn := rfl
@[simp] theorem State.retryAttempt_inputs (s : State) : s.retryAttempt.inputs = s.inputs := rfl
@[simp] theorem State.retryAttempt_ticks (s : State) : s.retryAttempt.ticks = s.ticks := rfl
@[simp] theorem State.retryAttempt_out (s : State) : s.retryAttempt.out = s.out := rfl

/-! ### `failTimeout` -/

@[simp] theorem State.failTimeout_state (cause : Cause) (s : State) :
    (s.failTimeout cause).state = SeqState.failed := rfl
@[simp] theorem State.failTimeout_slave (cause : Cause) (s : State) :
    (s.failTimeout cause).slave = s.slave := rfl
@[simp] theorem State.failTimeout_regAddr (cause : Cause) (s : State) :
    (s.failTimeout cause).regAddr = s.regAddr := rfl
@[simp] theorem State.failTimeout_value (cause : Cause) (s : State) :
    (s.failTimeout cause).value = s.value := rfl
@[simp] theorem State.failTimeout_retry (cause : Cause) (s : State) :
    (s.failTimeout cause).retry = s.retry := rfl
@[simp] theorem State.failTimeout_timeout (cause : Cause) (s : State) :
    (s.failTimeout cause).timeout = s.timeout := rfl
@[simp] theorem State.failTimeout_silence (cause : Cause) (s : State) :
    (s.failTimeout cause).silence = s.silence := rfl
@[simp] theorem State.failTimeout_illCmd (cause : Cause) (s : State) :
    (s.failTimeout cause).illCmd = s.illCmd := rfl
@[simp] theorem State.failTimeout_cmdOvr (cause : Cause) (s : State) :
    (s.failTimeout cause).cmdOvr = s.cmdOvr := rfl
@[simp] theorem State.failTimeout_res (cause : Cause) (s : State) :
    (s.failTimeout cause).res = (⟨.timeout, .none, cause == .crc, .none, 0x00⟩ : Result) := rfl
@[simp] theorem State.failTimeout_dataOut (cause : Cause) (s : State) :
    (s.failTimeout cause).dataOut = 0x0000 := rfl
@[simp] theorem State.failTimeout_attempts (cause : Cause) (s : State) :
    (s.failTimeout cause).attempts = s.attempts := rfl
@[simp] theorem State.failTimeout_txBuf (cause : Cause) (s : State) :
    (s.failTimeout cause).txBuf = s.txBuf := rfl
@[simp] theorem State.failTimeout_txIdx (cause : Cause) (s : State) :
    (s.failTimeout cause).txIdx = s.txIdx := rfl
@[simp] theorem State.failTimeout_rxBuf (cause : Cause) (s : State) :
    (s.failTimeout cause).rxBuf = s.rxBuf := rfl
@[simp] theorem State.failTimeout_rxLen (cause : Cause) (s : State) :
    (s.failTimeout cause).rxLen = s.rxLen := rfl
@[simp] theorem State.failTimeout_timer (cause : Cause) (s : State) :
    (s.failTimeout cause).timer = s.timer := rfl
@[simp] theorem State.failTimeout_idle (cause : Cause) (s : State) :
    (s.failTimeout cause).idle = s.idle := rfl
@[simp] theorem State.failTimeout_req (cause : Cause) (s : State) :
    (s.failTimeout cause).req = s.req := rfl
@[simp] theorem State.failTimeout_crc (cause : Cause) (s : State) :
    (s.failTimeout cause).crc = s.crc := rfl
@[simp] theorem State.failTimeout_crcIn (cause : Cause) (s : State) :
    (s.failTimeout cause).crcIn = s.crcIn := rfl
@[simp] theorem State.failTimeout_inputs (cause : Cause) (s : State) :
    (s.failTimeout cause).inputs = s.inputs := rfl
@[simp] theorem State.failTimeout_ticks (cause : Cause) (s : State) :
    (s.failTimeout cause).ticks = s.ticks := rfl
@[simp] theorem State.failTimeout_out (cause : Cause) (s : State) :
    (s.failTimeout cause).out = s.out := rfl

/-! ### `clearTransaction` -/

@[simp] theorem State.clearTransaction_state (s : State) : s.clearTransaction.state = s.state := rfl
@[simp] theorem State.clearTransaction_slave (s : State) : s.clearTransaction.slave = s.slave := rfl
@[simp] theorem State.clearTransaction_regAddr (s : State) :
    s.clearTransaction.regAddr = s.regAddr := rfl
@[simp] theorem State.clearTransaction_value (s : State) : s.clearTransaction.value = s.value := rfl
@[simp] theorem State.clearTransaction_retry (s : State) : s.clearTransaction.retry = s.retry := rfl
@[simp] theorem State.clearTransaction_timeout (s : State) :
    s.clearTransaction.timeout = s.timeout := rfl
@[simp] theorem State.clearTransaction_silence (s : State) :
    s.clearTransaction.silence = s.silence := rfl
@[simp] theorem State.clearTransaction_illCmd (s : State) :
    s.clearTransaction.illCmd = s.illCmd := rfl
@[simp] theorem State.clearTransaction_cmdOvr (s : State) :
    s.clearTransaction.cmdOvr = s.cmdOvr := rfl
@[simp] theorem State.clearTransaction_res (s : State) :
    s.clearTransaction.res = Result.cleared := rfl
@[simp] theorem State.clearTransaction_dataOut (s : State) :
    s.clearTransaction.dataOut = 0x0000 := rfl
@[simp] theorem State.clearTransaction_attempts (s : State) : s.clearTransaction.attempts = 0 := rfl
@[simp] theorem State.clearTransaction_txBuf (s : State) : s.clearTransaction.txBuf = s.txBuf := rfl
@[simp] theorem State.clearTransaction_txIdx (s : State) : s.clearTransaction.txIdx = 0 := rfl
@[simp] theorem State.clearTransaction_rxBuf (s : State) :
    s.clearTransaction.rxBuf = Buffer.zero := rfl
@[simp] theorem State.clearTransaction_rxLen (s : State) : s.clearTransaction.rxLen = 0 := rfl
@[simp] theorem State.clearTransaction_timer (s : State) :
    s.clearTransaction.timer = 0x00000000 := rfl
@[simp] theorem State.clearTransaction_idle (s : State) : s.clearTransaction.idle = s.idle := rfl
@[simp] theorem State.clearTransaction_req (s : State) : s.clearTransaction.req = s.req := rfl
@[simp] theorem State.clearTransaction_crc (s : State) : s.clearTransaction.crc = s.crc := rfl
@[simp] theorem State.clearTransaction_crcIn (s : State) : s.clearTransaction.crcIn = s.crcIn := rfl
@[simp] theorem State.clearTransaction_inputs (s : State) :
    s.clearTransaction.inputs = s.inputs := rfl
@[simp] theorem State.clearTransaction_ticks (s : State) : s.clearTransaction.ticks = s.ticks := rfl
@[simp] theorem State.clearTransaction_out (s : State) : s.clearTransaction.out = s.out := rfl

/-! ### `latch` -/

@[simp] theorem State.latch_state (c : FunctionCode) (s : State) :
    (s.latch c).state = s.state := rfl
@[simp] theorem State.latch_slave (c : FunctionCode) (s : State) :
    (s.latch c).slave = s.slave := rfl
@[simp] theorem State.latch_regAddr (c : FunctionCode) (s : State) :
    (s.latch c).regAddr = s.regAddr := rfl
@[simp] theorem State.latch_value (c : FunctionCode) (s : State) :
    (s.latch c).value = s.value := rfl
@[simp] theorem State.latch_retry (c : FunctionCode) (s : State) :
    (s.latch c).retry = s.retry := rfl
@[simp] theorem State.latch_timeout (c : FunctionCode) (s : State) :
    (s.latch c).timeout = s.timeout := rfl
@[simp] theorem State.latch_silence (c : FunctionCode) (s : State) :
    (s.latch c).silence = s.silence := rfl
@[simp] theorem State.latch_illCmd (c : FunctionCode) (s : State) :
    (s.latch c).illCmd = s.illCmd := rfl
@[simp] theorem State.latch_cmdOvr (c : FunctionCode) (s : State) :
    (s.latch c).cmdOvr = s.cmdOvr := rfl
@[simp] theorem State.latch_res (c : FunctionCode) (s : State) : (s.latch c).res = s.res := rfl
@[simp] theorem State.latch_dataOut (c : FunctionCode) (s : State) :
    (s.latch c).dataOut = s.dataOut := rfl
@[simp] theorem State.latch_attempts (c : FunctionCode) (s : State) :
    (s.latch c).attempts = s.attempts := rfl
@[simp] theorem State.latch_txBuf (c : FunctionCode) (s : State) :
    (s.latch c).txBuf = s.txBuf := rfl
@[simp] theorem State.latch_txIdx (c : FunctionCode) (s : State) :
    (s.latch c).txIdx = s.txIdx := rfl
@[simp] theorem State.latch_rxBuf (c : FunctionCode) (s : State) :
    (s.latch c).rxBuf = s.rxBuf := rfl
@[simp] theorem State.latch_rxLen (c : FunctionCode) (s : State) :
    (s.latch c).rxLen = s.rxLen := rfl
@[simp] theorem State.latch_timer (c : FunctionCode) (s : State) :
    (s.latch c).timer = s.timer := rfl
@[simp] theorem State.latch_idle (c : FunctionCode) (s : State) : (s.latch c).idle = s.idle := rfl
@[simp] theorem State.latch_req (c : FunctionCode) (s : State) :
    (s.latch c).req = (⟨s.slave, c.code, s.regAddr, s.value, s.retry, s.timeout, s.silence⟩ : Request) := rfl
@[simp] theorem State.latch_crc (c : FunctionCode) (s : State) : (s.latch c).crc = s.crc := rfl
@[simp] theorem State.latch_crcIn (c : FunctionCode) (s : State) :
    (s.latch c).crcIn = s.crcIn := rfl
@[simp] theorem State.latch_inputs (c : FunctionCode) (s : State) :
    (s.latch c).inputs = s.inputs := rfl
@[simp] theorem State.latch_ticks (c : FunctionCode) (s : State) :
    (s.latch c).ticks = s.ticks := rfl
@[simp] theorem State.latch_out (c : FunctionCode) (s : State) : (s.latch c).out = s.out := rfl

/-! ### `loadRequest` -/

@[simp] theorem State.loadRequest_state (p : List Byte) (s : State) :
    (s.loadRequest p).state = s.state := rfl
@[simp] theorem State.loadRequest_slave (p : List Byte) (s : State) :
    (s.loadRequest p).slave = s.slave := rfl
@[simp] theorem State.loadRequest_regAddr (p : List Byte) (s : State) :
    (s.loadRequest p).regAddr = s.regAddr := rfl
@[simp] theorem State.loadRequest_value (p : List Byte) (s : State) :
    (s.loadRequest p).value = s.value := rfl
@[simp] theorem State.loadRequest_retry (p : List Byte) (s : State) :
    (s.loadRequest p).retry = s.retry := rfl
@[simp] theorem State.loadRequest_timeout (p : List Byte) (s : State) :
    (s.loadRequest p).timeout = s.timeout := rfl
@[simp] theorem State.loadRequest_silence (p : List Byte) (s : State) :
    (s.loadRequest p).silence = s.silence := rfl
@[simp] theorem State.loadRequest_illCmd (p : List Byte) (s : State) :
    (s.loadRequest p).illCmd = s.illCmd := rfl
@[simp] theorem State.loadRequest_cmdOvr (p : List Byte) (s : State) :
    (s.loadRequest p).cmdOvr = s.cmdOvr := rfl
@[simp] theorem State.loadRequest_res (p : List Byte) (s : State) :
    (s.loadRequest p).res = s.res := rfl
@[simp] theorem State.loadRequest_dataOut (p : List Byte) (s : State) :
    (s.loadRequest p).dataOut = s.dataOut := rfl
@[simp] theorem State.loadRequest_attempts (p : List Byte) (s : State) :
    (s.loadRequest p).attempts = s.attempts := rfl
@[simp] theorem State.loadRequest_txBuf (p : List Byte) (s : State) :
    (s.loadRequest p).txBuf = Buffer.ofList (frameEncode s.req.slave p) := rfl
@[simp] theorem State.loadRequest_txIdx (p : List Byte) (s : State) :
    (s.loadRequest p).txIdx = s.txIdx := rfl
@[simp] theorem State.loadRequest_rxBuf (p : List Byte) (s : State) :
    (s.loadRequest p).rxBuf = s.rxBuf := rfl
@[simp] theorem State.loadRequest_rxLen (p : List Byte) (s : State) :
    (s.loadRequest p).rxLen = s.rxLen := rfl
@[simp] theorem State.loadRequest_timer (p : List Byte) (s : State) :
    (s.loadRequest p).timer = s.timer := rfl
@[simp] theorem State.loadRequest_idle (p : List Byte) (s : State) :
    (s.loadRequest p).idle = s.idle := rfl
@[simp] theorem State.loadRequest_req (p : List Byte) (s : State) :
    (s.loadRequest p).req = s.req := rfl
@[simp] theorem State.loadRequest_crc (p : List Byte) (s : State) :
    (s.loadRequest p).crc = s.crc := rfl
@[simp] theorem State.loadRequest_crcIn (p : List Byte) (s : State) :
    (s.loadRequest p).crcIn = s.crcIn := rfl
@[simp] theorem State.loadRequest_inputs (p : List Byte) (s : State) :
    (s.loadRequest p).inputs = s.inputs := rfl
@[simp] theorem State.loadRequest_ticks (p : List Byte) (s : State) :
    (s.loadRequest p).ticks = s.ticks := rfl
@[simp] theorem State.loadRequest_out (p : List Byte) (s : State) :
    (s.loadRequest p).out = s.out := rfl

/-! ### `buildRequest` -/

@[simp] theorem State.buildRequest_state (c : FunctionCode) (s : State) :
    (s.buildRequest c).state = SeqState.silence := rfl
@[simp] theorem State.buildRequest_slave (c : FunctionCode) (s : State) :
    (s.buildRequest c).slave = s.slave := rfl
@[simp] theorem State.buildRequest_regAddr (c : FunctionCode) (s : State) :
    (s.buildRequest c).regAddr = s.regAddr := rfl
@[simp] theorem State.buildRequest_value (c : FunctionCode) (s : State) :
    (s.buildRequest c).value = s.value := rfl
@[simp] theorem State.buildRequest_retry (c : FunctionCode) (s : State) :
    (s.buildRequest c).retry = s.retry := rfl
@[simp] theorem State.buildRequest_timeout (c : FunctionCode) (s : State) :
    (s.buildRequest c).timeout = s.timeout := rfl
@[simp] theorem State.buildRequest_silence (c : FunctionCode) (s : State) :
    (s.buildRequest c).silence = s.silence := rfl
@[simp] theorem State.buildRequest_illCmd (c : FunctionCode) (s : State) :
    (s.buildRequest c).illCmd = s.illCmd := rfl
@[simp] theorem State.buildRequest_cmdOvr (c : FunctionCode) (s : State) :
    (s.buildRequest c).cmdOvr = s.cmdOvr := rfl
@[simp] theorem State.buildRequest_res (c : FunctionCode) (s : State) :
    (s.buildRequest c).res = s.res := rfl
@[simp] theorem State.buildRequest_dataOut (c : FunctionCode) (s : State) :
    (s.buildRequest c).dataOut = s.dataOut := rfl
@[simp] theorem State.buildRequest_attempts (c : FunctionCode) (s : State) :
    (s.buildRequest c).attempts = s.attempts := rfl
@[simp] theorem State.buildRequest_txBuf (c : FunctionCode) (s : State) :
    (s.buildRequest c).txBuf = Buffer.ofList (frameEncode s.req.slave (encodeRequest c s.req.addr s.req.value)) := rfl
@[simp] theorem State.buildRequest_txIdx (c : FunctionCode) (s : State) :
    (s.buildRequest c).txIdx = s.txIdx := rfl
@[simp] theorem State.buildRequest_rxBuf (c : FunctionCode) (s : State) :
    (s.buildRequest c).rxBuf = s.rxBuf := rfl
@[simp] theorem State.buildRequest_rxLen (c : FunctionCode) (s : State) :
    (s.buildRequest c).rxLen = s.rxLen := rfl
@[simp] theorem State.buildRequest_timer (c : FunctionCode) (s : State) :
    (s.buildRequest c).timer = s.timer := rfl
@[simp] theorem State.buildRequest_idle (c : FunctionCode) (s : State) :
    (s.buildRequest c).idle = s.idle := rfl
@[simp] theorem State.buildRequest_req (c : FunctionCode) (s : State) :
    (s.buildRequest c).req = s.req := rfl
@[simp] theorem State.buildRequest_crc (c : FunctionCode) (s : State) :
    (s.buildRequest c).crc = s.crc := rfl
@[simp] theorem State.buildRequest_crcIn (c : FunctionCode) (s : State) :
    (s.buildRequest c).crcIn = s.crcIn := rfl
@[simp] theorem State.buildRequest_inputs (c : FunctionCode) (s : State) :
    (s.buildRequest c).inputs = s.inputs := rfl
@[simp] theorem State.buildRequest_ticks (c : FunctionCode) (s : State) :
    (s.buildRequest c).ticks = s.ticks := rfl
@[simp] theorem State.buildRequest_out (c : FunctionCode) (s : State) :
    (s.buildRequest c).out = s.out := rfl

/-! ### `refuseSlave` -/

@[simp] theorem State.refuseSlave_state (s : State) : s.refuseSlave.state = SeqState.failed := rfl
@[simp] theorem State.refuseSlave_slave (s : State) : s.refuseSlave.slave = s.slave := rfl
@[simp] theorem State.refuseSlave_regAddr (s : State) : s.refuseSlave.regAddr = s.regAddr := rfl
@[simp] theorem State.refuseSlave_value (s : State) : s.refuseSlave.value = s.value := rfl
@[simp] theorem State.refuseSlave_retry (s : State) : s.refuseSlave.retry = s.retry := rfl
@[simp] theorem State.refuseSlave_timeout (s : State) : s.refuseSlave.timeout = s.timeout := rfl
@[simp] theorem State.refuseSlave_silence (s : State) : s.refuseSlave.silence = s.silence := rfl
@[simp] theorem State.refuseSlave_illCmd (s : State) : s.refuseSlave.illCmd = s.illCmd := rfl
@[simp] theorem State.refuseSlave_cmdOvr (s : State) : s.refuseSlave.cmdOvr = s.cmdOvr := rfl
@[simp] theorem State.refuseSlave_res (s : State) :
    s.refuseSlave.res = (⟨.argError, .none, false, .none, 0x00⟩ : Result) := rfl
@[simp] theorem State.refuseSlave_dataOut (s : State) : s.refuseSlave.dataOut = 0x0000 := rfl
@[simp] theorem State.refuseSlave_attempts (s : State) : s.refuseSlave.attempts = s.attempts := rfl
@[simp] theorem State.refuseSlave_txBuf (s : State) : s.refuseSlave.txBuf = Buffer.zero := rfl
@[simp] theorem State.refuseSlave_txIdx (s : State) : s.refuseSlave.txIdx = s.txIdx := rfl
@[simp] theorem State.refuseSlave_rxBuf (s : State) : s.refuseSlave.rxBuf = s.rxBuf := rfl
@[simp] theorem State.refuseSlave_rxLen (s : State) : s.refuseSlave.rxLen = s.rxLen := rfl
@[simp] theorem State.refuseSlave_timer (s : State) : s.refuseSlave.timer = s.timer := rfl
@[simp] theorem State.refuseSlave_idle (s : State) : s.refuseSlave.idle = s.idle := rfl
@[simp] theorem State.refuseSlave_req (s : State) : s.refuseSlave.req = s.req := rfl
@[simp] theorem State.refuseSlave_crc (s : State) : s.refuseSlave.crc = s.crc := rfl
@[simp] theorem State.refuseSlave_crcIn (s : State) : s.refuseSlave.crcIn = s.crcIn := rfl
@[simp] theorem State.refuseSlave_inputs (s : State) : s.refuseSlave.inputs = s.inputs := rfl
@[simp] theorem State.refuseSlave_ticks (s : State) : s.refuseSlave.ticks = s.ticks := rfl
@[simp] theorem State.refuseSlave_out (s : State) : s.refuseSlave.out = s.out := rfl

/-! ### `overrun` -/

@[simp] theorem State.overrun_state (s : State) : s.overrun.state = s.state := rfl
@[simp] theorem State.overrun_slave (s : State) : s.overrun.slave = s.slave := rfl
@[simp] theorem State.overrun_regAddr (s : State) : s.overrun.regAddr = s.regAddr := rfl
@[simp] theorem State.overrun_value (s : State) : s.overrun.value = s.value := rfl
@[simp] theorem State.overrun_retry (s : State) : s.overrun.retry = s.retry := rfl
@[simp] theorem State.overrun_timeout (s : State) : s.overrun.timeout = s.timeout := rfl
@[simp] theorem State.overrun_silence (s : State) : s.overrun.silence = s.silence := rfl
@[simp] theorem State.overrun_illCmd (s : State) : s.overrun.illCmd = s.illCmd := rfl
@[simp] theorem State.overrun_cmdOvr (s : State) : s.overrun.cmdOvr = true := rfl
@[simp] theorem State.overrun_res (s : State) : s.overrun.res = s.res := rfl
@[simp] theorem State.overrun_dataOut (s : State) : s.overrun.dataOut = s.dataOut := rfl
@[simp] theorem State.overrun_attempts (s : State) : s.overrun.attempts = s.attempts := rfl
@[simp] theorem State.overrun_txBuf (s : State) : s.overrun.txBuf = s.txBuf := rfl
@[simp] theorem State.overrun_txIdx (s : State) : s.overrun.txIdx = s.txIdx := rfl
@[simp] theorem State.overrun_rxBuf (s : State) : s.overrun.rxBuf = s.rxBuf := rfl
@[simp] theorem State.overrun_rxLen (s : State) : s.overrun.rxLen = s.rxLen := rfl
@[simp] theorem State.overrun_timer (s : State) : s.overrun.timer = s.timer := rfl
@[simp] theorem State.overrun_idle (s : State) : s.overrun.idle = s.idle := rfl
@[simp] theorem State.overrun_req (s : State) : s.overrun.req = s.req := rfl
@[simp] theorem State.overrun_crc (s : State) : s.overrun.crc = s.crc := rfl
@[simp] theorem State.overrun_crcIn (s : State) : s.overrun.crcIn = s.crcIn := rfl
@[simp] theorem State.overrun_inputs (s : State) : s.overrun.inputs = s.inputs := rfl
@[simp] theorem State.overrun_ticks (s : State) : s.overrun.ticks = s.ticks := rfl
@[simp] theorem State.overrun_out (s : State) : s.overrun.out = s.out := rfl

/-! ### `illegalCommand` -/

@[simp] theorem State.illegalCommand_state (s : State) : s.illegalCommand.state = s.state := rfl
@[simp] theorem State.illegalCommand_slave (s : State) : s.illegalCommand.slave = s.slave := rfl
@[simp] theorem State.illegalCommand_regAddr (s : State) :
    s.illegalCommand.regAddr = s.regAddr := rfl
@[simp] theorem State.illegalCommand_value (s : State) : s.illegalCommand.value = s.value := rfl
@[simp] theorem State.illegalCommand_retry (s : State) : s.illegalCommand.retry = s.retry := rfl
@[simp] theorem State.illegalCommand_timeout (s : State) :
    s.illegalCommand.timeout = s.timeout := rfl
@[simp] theorem State.illegalCommand_silence (s : State) :
    s.illegalCommand.silence = s.silence := rfl
@[simp] theorem State.illegalCommand_illCmd (s : State) : s.illegalCommand.illCmd = true := rfl
@[simp] theorem State.illegalCommand_cmdOvr (s : State) : s.illegalCommand.cmdOvr = s.cmdOvr := rfl
@[simp] theorem State.illegalCommand_res (s : State) : s.illegalCommand.res = s.res := rfl
@[simp] theorem State.illegalCommand_dataOut (s : State) :
    s.illegalCommand.dataOut = s.dataOut := rfl
@[simp] theorem State.illegalCommand_attempts (s : State) :
    s.illegalCommand.attempts = s.attempts := rfl
@[simp] theorem State.illegalCommand_txBuf (s : State) : s.illegalCommand.txBuf = s.txBuf := rfl
@[simp] theorem State.illegalCommand_txIdx (s : State) : s.illegalCommand.txIdx = s.txIdx := rfl
@[simp] theorem State.illegalCommand_rxBuf (s : State) : s.illegalCommand.rxBuf = s.rxBuf := rfl
@[simp] theorem State.illegalCommand_rxLen (s : State) : s.illegalCommand.rxLen = s.rxLen := rfl
@[simp] theorem State.illegalCommand_timer (s : State) : s.illegalCommand.timer = s.timer := rfl
@[simp] theorem State.illegalCommand_idle (s : State) : s.illegalCommand.idle = s.idle := rfl
@[simp] theorem State.illegalCommand_req (s : State) : s.illegalCommand.req = s.req := rfl
@[simp] theorem State.illegalCommand_crc (s : State) : s.illegalCommand.crc = s.crc := rfl
@[simp] theorem State.illegalCommand_crcIn (s : State) : s.illegalCommand.crcIn = s.crcIn := rfl
@[simp] theorem State.illegalCommand_inputs (s : State) : s.illegalCommand.inputs = s.inputs := rfl
@[simp] theorem State.illegalCommand_ticks (s : State) : s.illegalCommand.ticks = s.ticks := rfl
@[simp] theorem State.illegalCommand_out (s : State) : s.illegalCommand.out = s.out := rfl

/-! ### `setCrc` -/

@[simp] theorem State.setCrc_state (c : Half) (s : State) : (s.setCrc c).state = s.state := rfl
@[simp] theorem State.setCrc_slave (c : Half) (s : State) : (s.setCrc c).slave = s.slave := rfl
@[simp] theorem State.setCrc_regAddr (c : Half) (s : State) :
    (s.setCrc c).regAddr = s.regAddr := rfl
@[simp] theorem State.setCrc_value (c : Half) (s : State) : (s.setCrc c).value = s.value := rfl
@[simp] theorem State.setCrc_retry (c : Half) (s : State) : (s.setCrc c).retry = s.retry := rfl
@[simp] theorem State.setCrc_timeout (c : Half) (s : State) :
    (s.setCrc c).timeout = s.timeout := rfl
@[simp] theorem State.setCrc_silence (c : Half) (s : State) :
    (s.setCrc c).silence = s.silence := rfl
@[simp] theorem State.setCrc_illCmd (c : Half) (s : State) : (s.setCrc c).illCmd = s.illCmd := rfl
@[simp] theorem State.setCrc_cmdOvr (c : Half) (s : State) : (s.setCrc c).cmdOvr = s.cmdOvr := rfl
@[simp] theorem State.setCrc_res (c : Half) (s : State) : (s.setCrc c).res = s.res := rfl
@[simp] theorem State.setCrc_dataOut (c : Half) (s : State) :
    (s.setCrc c).dataOut = s.dataOut := rfl
@[simp] theorem State.setCrc_attempts (c : Half) (s : State) :
    (s.setCrc c).attempts = s.attempts := rfl
@[simp] theorem State.setCrc_txBuf (c : Half) (s : State) : (s.setCrc c).txBuf = s.txBuf := rfl
@[simp] theorem State.setCrc_txIdx (c : Half) (s : State) : (s.setCrc c).txIdx = s.txIdx := rfl
@[simp] theorem State.setCrc_rxBuf (c : Half) (s : State) : (s.setCrc c).rxBuf = s.rxBuf := rfl
@[simp] theorem State.setCrc_rxLen (c : Half) (s : State) : (s.setCrc c).rxLen = s.rxLen := rfl
@[simp] theorem State.setCrc_timer (c : Half) (s : State) : (s.setCrc c).timer = s.timer := rfl
@[simp] theorem State.setCrc_idle (c : Half) (s : State) : (s.setCrc c).idle = s.idle := rfl
@[simp] theorem State.setCrc_req (c : Half) (s : State) : (s.setCrc c).req = s.req := rfl
@[simp] theorem State.setCrc_crc (c : Half) (s : State) : (s.setCrc c).crc = c := rfl
@[simp] theorem State.setCrc_crcIn (c : Half) (s : State) : (s.setCrc c).crcIn = s.crcIn := rfl
@[simp] theorem State.setCrc_inputs (c : Half) (s : State) : (s.setCrc c).inputs = s.inputs := rfl
@[simp] theorem State.setCrc_ticks (c : Half) (s : State) : (s.setCrc c).ticks = s.ticks := rfl
@[simp] theorem State.setCrc_out (c : Half) (s : State) : (s.setCrc c).out = s.out := rfl

/-! ### `startAttempt` -/

@[simp] theorem State.startAttempt_state (s : State) : s.startAttempt.state = SeqState.sent := rfl
@[simp] theorem State.startAttempt_slave (s : State) : s.startAttempt.slave = s.slave := rfl
@[simp] theorem State.startAttempt_regAddr (s : State) : s.startAttempt.regAddr = s.regAddr := rfl
@[simp] theorem State.startAttempt_value (s : State) : s.startAttempt.value = s.value := rfl
@[simp] theorem State.startAttempt_retry (s : State) : s.startAttempt.retry = s.retry := rfl
@[simp] theorem State.startAttempt_timeout (s : State) : s.startAttempt.timeout = s.timeout := rfl
@[simp] theorem State.startAttempt_silence (s : State) : s.startAttempt.silence = s.silence := rfl
@[simp] theorem State.startAttempt_illCmd (s : State) : s.startAttempt.illCmd = s.illCmd := rfl
@[simp] theorem State.startAttempt_cmdOvr (s : State) : s.startAttempt.cmdOvr = s.cmdOvr := rfl
@[simp] theorem State.startAttempt_res (s : State) : s.startAttempt.res = s.res := rfl
@[simp] theorem State.startAttempt_dataOut (s : State) : s.startAttempt.dataOut = s.dataOut := rfl
@[simp] theorem State.startAttempt_attempts (s : State) :
    s.startAttempt.attempts = s.attempts + 1 := rfl
@[simp] theorem State.startAttempt_txBuf (s : State) : s.startAttempt.txBuf = s.txBuf := rfl
@[simp] theorem State.startAttempt_txIdx (s : State) : s.startAttempt.txIdx = 0 := rfl
@[simp] theorem State.startAttempt_rxBuf (s : State) : s.startAttempt.rxBuf = Buffer.zero := rfl
@[simp] theorem State.startAttempt_rxLen (s : State) : s.startAttempt.rxLen = 0 := rfl
@[simp] theorem State.startAttempt_timer (s : State) : s.startAttempt.timer = 0x00000000 := rfl
@[simp] theorem State.startAttempt_idle (s : State) : s.startAttempt.idle = s.idle := rfl
@[simp] theorem State.startAttempt_req (s : State) : s.startAttempt.req = s.req := rfl
@[simp] theorem State.startAttempt_crc (s : State) : s.startAttempt.crc = s.crc := rfl
@[simp] theorem State.startAttempt_crcIn (s : State) : s.startAttempt.crcIn = s.crcIn := rfl
@[simp] theorem State.startAttempt_inputs (s : State) : s.startAttempt.inputs = s.inputs := rfl
@[simp] theorem State.startAttempt_ticks (s : State) : s.startAttempt.ticks = s.ticks := rfl
@[simp] theorem State.startAttempt_out (s : State) : s.startAttempt.out = s.out := rfl

/-! ### `storeRx` -/

@[simp] theorem State.storeRx_state (b : Byte) (s : State) : (s.storeRx b).state = s.state := rfl
@[simp] theorem State.storeRx_slave (b : Byte) (s : State) : (s.storeRx b).slave = s.slave := rfl
@[simp] theorem State.storeRx_regAddr (b : Byte) (s : State) :
    (s.storeRx b).regAddr = s.regAddr := rfl
@[simp] theorem State.storeRx_value (b : Byte) (s : State) : (s.storeRx b).value = s.value := rfl
@[simp] theorem State.storeRx_retry (b : Byte) (s : State) : (s.storeRx b).retry = s.retry := rfl
@[simp] theorem State.storeRx_timeout (b : Byte) (s : State) :
    (s.storeRx b).timeout = s.timeout := rfl
@[simp] theorem State.storeRx_silence (b : Byte) (s : State) :
    (s.storeRx b).silence = s.silence := rfl
@[simp] theorem State.storeRx_illCmd (b : Byte) (s : State) : (s.storeRx b).illCmd = s.illCmd := rfl
@[simp] theorem State.storeRx_cmdOvr (b : Byte) (s : State) : (s.storeRx b).cmdOvr = s.cmdOvr := rfl
@[simp] theorem State.storeRx_res (b : Byte) (s : State) : (s.storeRx b).res = s.res := rfl
@[simp] theorem State.storeRx_dataOut (b : Byte) (s : State) :
    (s.storeRx b).dataOut = s.dataOut := rfl
@[simp] theorem State.storeRx_attempts (b : Byte) (s : State) :
    (s.storeRx b).attempts = s.attempts := rfl
@[simp] theorem State.storeRx_txBuf (b : Byte) (s : State) : (s.storeRx b).txBuf = s.txBuf := rfl
@[simp] theorem State.storeRx_txIdx (b : Byte) (s : State) : (s.storeRx b).txIdx = s.txIdx := rfl
@[simp] theorem State.storeRx_rxBuf (b : Byte) (s : State) :
    (s.storeRx b).rxBuf = s.rxBuf.set s.rxLen.toNat b := rfl
@[simp] theorem State.storeRx_rxLen (b : Byte) (s : State) :
    (s.storeRx b).rxLen = s.rxLen + 1 := rfl
@[simp] theorem State.storeRx_timer (b : Byte) (s : State) : (s.storeRx b).timer = s.timer := rfl
@[simp] theorem State.storeRx_idle (b : Byte) (s : State) : (s.storeRx b).idle = s.idle := rfl
@[simp] theorem State.storeRx_req (b : Byte) (s : State) : (s.storeRx b).req = s.req := rfl
@[simp] theorem State.storeRx_crc (b : Byte) (s : State) : (s.storeRx b).crc = s.crc := rfl
@[simp] theorem State.storeRx_crcIn (b : Byte) (s : State) : (s.storeRx b).crcIn = s.crcIn := rfl
@[simp] theorem State.storeRx_inputs (b : Byte) (s : State) : (s.storeRx b).inputs = s.inputs := rfl
@[simp] theorem State.storeRx_ticks (b : Byte) (s : State) : (s.storeRx b).ticks = s.ticks := rfl
@[simp] theorem State.storeRx_out (b : Byte) (s : State) : (s.storeRx b).out = s.out := rfl

/-! ### `endTick` -/

@[simp] theorem State.endTick_state (t : TickInput) (s u : State) :
    (s.endTick t u).state = u.state := rfl
@[simp] theorem State.endTick_slave (t : TickInput) (s u : State) :
    (s.endTick t u).slave = u.slave := rfl
@[simp] theorem State.endTick_regAddr (t : TickInput) (s u : State) :
    (s.endTick t u).regAddr = u.regAddr := rfl
@[simp] theorem State.endTick_value (t : TickInput) (s u : State) :
    (s.endTick t u).value = u.value := rfl
@[simp] theorem State.endTick_retry (t : TickInput) (s u : State) :
    (s.endTick t u).retry = u.retry := rfl
@[simp] theorem State.endTick_timeout (t : TickInput) (s u : State) :
    (s.endTick t u).timeout = u.timeout := rfl
@[simp] theorem State.endTick_silence (t : TickInput) (s u : State) :
    (s.endTick t u).silence = u.silence := rfl
@[simp] theorem State.endTick_illCmd (t : TickInput) (s u : State) :
    (s.endTick t u).illCmd = u.illCmd := rfl
@[simp] theorem State.endTick_cmdOvr (t : TickInput) (s u : State) :
    (s.endTick t u).cmdOvr = u.cmdOvr := rfl
@[simp] theorem State.endTick_res (t : TickInput) (s u : State) : (s.endTick t u).res = u.res := rfl
@[simp] theorem State.endTick_dataOut (t : TickInput) (s u : State) :
    (s.endTick t u).dataOut = u.dataOut := rfl
@[simp] theorem State.endTick_attempts (t : TickInput) (s u : State) :
    (s.endTick t u).attempts = u.attempts := rfl
@[simp] theorem State.endTick_txBuf (t : TickInput) (s u : State) :
    (s.endTick t u).txBuf = u.txBuf := rfl
@[simp] theorem State.endTick_txIdx (t : TickInput) (s u : State) :
    (s.endTick t u).txIdx = u.txIdx := rfl
@[simp] theorem State.endTick_rxBuf (t : TickInput) (s u : State) :
    (s.endTick t u).rxBuf = u.rxBuf := rfl
@[simp] theorem State.endTick_rxLen (t : TickInput) (s u : State) :
    (s.endTick t u).rxLen = u.rxLen := rfl
@[simp] theorem State.endTick_timer (t : TickInput) (s u : State) :
    (s.endTick t u).timer = u.timer := rfl
@[simp] theorem State.endTick_idle (t : TickInput) (s u : State) :
    (s.endTick t u).idle = s.nextIdle t := rfl
@[simp] theorem State.endTick_req (t : TickInput) (s u : State) : (s.endTick t u).req = u.req := rfl
@[simp] theorem State.endTick_crc (t : TickInput) (s u : State) : (s.endTick t u).crc = u.crc := rfl
@[simp] theorem State.endTick_crcIn (t : TickInput) (s u : State) :
    (s.endTick t u).crcIn = u.crcIn := rfl
@[simp] theorem State.endTick_inputs (t : TickInput) (s u : State) :
    (s.endTick t u).inputs = s.inputs.tail := rfl
@[simp] theorem State.endTick_ticks (t : TickInput) (s u : State) :
    (s.endTick t u).ticks = s.ticks + 1 := rfl
@[simp] theorem State.endTick_out (t : TickInput) (s u : State) :
    (s.endTick t u).out = s.outputs (hostReadData t.host s) := rfl

end Sys2Proof.Machine
end

