-- ==== Sys2Proof/Laws/Ops.lean ====
section
/-! SUPPORT. What each shared operation can do, said once: proofs cite these instead of unfolding. -/

namespace Sys2Proof.Machine

/-! ### Named values -/

theorem SeqState.busy_iff (q : SeqState) :
    q.busy = true ↔ q = .silence ∨ q = .sent ∨ q = .await := by
  cases q <;> simp [SeqState.busy]

theorem SeqState.done_iff (q : SeqState) : q.done = true ↔ q = .completed ∨ q = .failed := by
  cases q <;> simp [SeqState.done]

/-- `sat_inc32` as a number (00_scope.md R11). -/
theorem satInc32_toNat (v : Word) : (satInc32 v).toNat = min (v.toNat + 1) 0xFFFFFFFF := by
  unfold satInc32
  have := v.isLt
  split <;> rename_i h <;> simp only [BitVec.lt_def] at h <;> simp at h ⊢ <;> omega

/-! ### Outcomes -/

theorem andThen_next {o : Host.Outcome State Fault Refusal} {f u} :
    andThen o f = .next u ↔ ∃ s, o = .next s ∧ f s = .next u := by
  cases o <;> simp [andThen]

@[simp] theorem andThen_of_next (s : State) (f) : andThen (.next s) f = f s := rfl

@[simp] theorem andThen_of_refused (r : Refusal) (f) : andThen (.refused r) f = .refused r := rfl

/-! ### Ending an attempt or a transaction -/

theorem attemptFailed_of_budget {s : State} (h : s.attempts.toNat < 1 + s.req.retry.toNat) (cause : Cause) :
    s.attemptFailed cause = s.retryAttempt := by
  simp [State.attemptFailed, State.budgetLeft, h]

theorem attemptFailed_of_exhausted {s : State} (h : 1 + s.req.retry.toNat ≤ s.attempts.toNat)
    (cause : Cause) : s.attemptFailed cause = s.failTimeout cause := by
  simp [State.attemptFailed, State.budgetLeft, Nat.not_lt.mpr h]

/-- A failed attempt is retried or ends the transaction with TIMEOUT (43_transaction.md R221). -/
theorem attemptFailed_cases (s : State) (cause : Cause) :
    (s.attempts.toNat < 1 + s.req.retry.toNat ∧ s.attemptFailed cause = s.retryAttempt) ∨
    (1 + s.req.retry.toNat ≤ s.attempts.toNat ∧ s.attemptFailed cause = s.failTimeout cause) := by
  rcases Nat.lt_or_ge s.attempts.toNat (1 + s.req.retry.toNat) with h | h
  · exact .inl ⟨h, attemptFailed_of_budget h cause⟩
  · exact .inr ⟨h, attemptFailed_of_exhausted h cause⟩

/-- A verdict ends the transaction. -/
theorem settle_cases (v : Verdict) (s : State) :
    (∃ code x, code ≠ .none ∧ code ≠ .ok ∧ s.settle v = s.fail code x) ∨
    (∃ k d, k ≠ .none ∧ s.settle v = s.complete k d) := by
  cases v
  case exception fc x => exact .inl ⟨.deviceException, x, nofun, nofun, rfl⟩
  case value v => exact .inr ⟨.value, v, nofun, rfl⟩
  case bit b => exact .inr ⟨.bit, _, nofun, rfl⟩
  case ack => exact .inr ⟨.ack, _, nofun, rfl⟩
  case unexpectedFunction => exact .inl ⟨.unexpectedFunction, 0x00, nofun, nofun, rfl⟩
  case echoMismatch => exact .inl ⟨.echoMismatch, 0x00, nofun, nofun, rfl⟩
  case byteCountMismatch => exact .inl ⟨.byteCountMismatch, 0x00, nofun, nofun, rfl⟩

/-! ### Running an instruction -/

/-- The verdicts a function code can lead to. -/
def Verdict.Fits (fc : Byte) : Verdict → Prop
  | .value _ => fc = 0x03
  | .bit _ => fc = 0x01
  | .ack => fc = 0x05 ∨ fc = 0x06
  | .exception _ _ => True
  | .unexpectedFunction => True
  | .echoMismatch => True
  | .byteCountMismatch => True

/-- A response or exception PDU in AWAIT settles the transaction with a verdict its request allows. -/
theorem exec_response {i : Instr} (hi : i.port = .response) {s : State} (hs : s.state = .await) :
    ∃ v : Verdict, v.Fits s.req.fc ∧ exec i s = .next (s.settle v) := by
  have run (c : FunctionCode) (w : Request → Verdict) (h : s.req.fc = c.code → (w s.req).Fits s.req.fc) :
      ∃ v : Verdict, v.Fits s.req.fc ∧
        Host.Outcome.next (φ := Fault) (ρ := Refusal) (s.respond c w) = .next (s.settle v) := by
    by_cases hc : s.req.fc = c.code
    · exact ⟨w s.req, h hc, by simp [State.respond, hs, hc]⟩
    · exact ⟨.unexpectedFunction, trivial, by simp [State.respond, hs, hc]⟩
  cases i <;> first | (cases hi; done) | skip
  case rspReadCoils bc d =>
    refine run _ _ fun h => ?_
    unfold decReadCoils
    split
    · exact h
    · trivial
  case rspReadHolding bc v =>
    refine run _ _ fun h => ?_
    unfold decReadHolding
    split
    · exact h
    · trivial
  case rspWriteCoil a cw =>
    refine run _ _ fun h => ?_
    unfold decWriteCoil
    split
    · exact .inl h
    · trivial
  case rspWriteRegister a v =>
    refine run _ _ fun h => ?_
    unfold decWriteRegister
    split
    · exact .inr h
    · trivial
  all_goals exact run _ (fun _ => decException _ _) fun _ => True.intro

/-- A response or exception PDU outside AWAIT changes nothing. -/
theorem respond_outside_await {s : State} (h : s.state ≠ .await) (c : FunctionCode) (v : Request → Verdict) :
    s.respond c v = s := by
  simp [State.respond, h]

/-- A host command runs the transaction branch or writes the CRC register. -/
theorem exec_command {i : Instr} (hi : i.port = .command) (s : State) :
    (∃ c, i = commandOf c ∧ exec i s = .next (s.transactionCommand c)) ∨
    (i = .crcInit ∧ exec i s = .next (s.setCrc 0xFFFF)) ∨
    (i = .crcFeed ∧ exec i s = .next (s.setCrc (crcStep s.crc s.crcIn))) := by
  cases i <;> first | (cases hi; done) | skip
  · exact .inl ⟨.readCoils, rfl, rfl⟩
  · exact .inl ⟨.readHolding, rfl, rfl⟩
  · exact .inl ⟨.writeCoil, rfl, rfl⟩
  · exact .inl ⟨.writeRegister, rfl, rfl⟩
  · exact .inr (.inl ⟨rfl, rfl⟩)
  · exact .inr (.inr ⟨rfl, rfl⟩)

/-! ### Decoding at a port -/

/-- What is decoded at CMD is a host command. -/
theorem port_of_decodeCode {c : Byte} {i : Instr} (h : decodeCode c = .ok i) : i.port = .command := by
  unfold decodeCode at h
  repeat' split at h
  all_goals first | (cases h; rfl) | cases h

/-- What is decoded as a response PDU is a response or exception PDU. -/
theorem port_of_decodePdu {p : List Byte} {i : Instr} (h : decodePdu p = .ok i) : i.port = .response := by
  unfold decodePdu decodeCoilData decodeRegisterData decodeOperands decodeException at h
  repeat' split at h
  all_goals first | (cases h; rfl) | cases h

/-! ### The host phase -/

/-- A host write either leaves the transaction alone, changing only the configuration registers, the sticky
flags and the CRC unit, or is an accepted transaction command. -/
theorem hostWrite_cases (off : Byte) (v : Word) (s : State) :
    ∃ u, hostWrite off v s = .next u ∧
      ((∃ sl ra va re ti si ic co cr ci, u = { s with
          slave := sl, regAddr := ra, value := va, retry := re, timeout := ti, silence := si
          illCmd := ic, cmdOvr := co, crc := cr, crcIn := ci }) ∨
       (off = 0x00 ∧ s.state.busy = false ∧ ∃ c : FunctionCode, v.extractLsb' 0 8 = c.code ∧
          u = s.acceptTransaction c)) := by
  unfold hostWrite
  split
  · rename_i h0
    unfold commandWrite
    split
    · rename_i i hi
      rcases exec_command (port_of_decodeCode hi) s with ⟨c, rfl, hx⟩ | ⟨_, hx⟩ | ⟨_, hx⟩
      · refine ⟨_, hx, ?_⟩
        unfold State.transactionCommand
        split
        · exact .inl ⟨_, _, _, _, _, _, _, _, _, _, rfl⟩
        · rename_i hb
          refine .inr ⟨h0, by simpa only [Bool.not_eq_true] using hb, c, ?_, rfl⟩
          have hd : decodeCode (v.extractLsb' 0 8) = .ok (commandOf c) := hi
          unfold decodeCode at hd
          repeat' split at hd
          all_goals cases c <;> first | assumption | (cases hd)
      · exact ⟨_, hx, .inl ⟨_, _, _, _, _, _, _, _, _, _, rfl⟩⟩
      · exact ⟨_, hx, .inl ⟨_, _, _, _, _, _, _, _, _, _, rfl⟩⟩
    · exact ⟨_, rfl, .inl ⟨_, _, _, _, _, _, _, _, _, _, rfl⟩⟩
  · repeat' split
    all_goals exact ⟨_, rfl, .inl ⟨_, _, _, _, _, _, _, _, _, _, rfl⟩⟩

/-- The host phase always answers a next state. -/
theorem hostPhase_next (h : List HostAccess) (s : State) : ∃ u, hostPhase h s = .next u := by
  unfold hostPhase
  split
  · exact ⟨s, rfl⟩
  · unfold hostAccess
    split
    · exact ⟨s, rfl⟩
    · obtain ⟨u, hu, -⟩ := hostWrite_cases _ _ s
      exact ⟨u, hu⟩

/-- A tick is admitted exactly when it has at most one host access, and a defined one (20_memory.md R65). -/
theorem hostRefusal_eq_none {t : TickInput} : hostRefusal t.host = none ↔ t.hostDefined = true := by
  unfold hostRefusal TickInput.hostDefined
  rcases t.host with _ | ⟨a, _ | ⟨b, l⟩⟩ <;> simp

/-! ### The sequencer phase -/

/-- `ExpectedLen` for a function code of the four (30_encoding.md R94). -/
@[simp] theorem expectedLen_code (c : FunctionCode) (first : Byte) :
    expectedLen c.code first = some (if first = exceptionOf c.code then exceptionLen else normLen c) := by
  simp [expectedLen]

/-- Evaluating a complete response in AWAIT fails the attempt, or ends the transaction with
ADDRESS_MISMATCH or with a verdict its request allows (43_transaction.md R210). -/
theorem evaluate_cases {s : State} (hs : s.state = .await) :
    (∃ e, frameDecode (s.rxBuf.first s.rxLen.toNat) = .error e ∧
        evaluate s = .next (s.attemptFailed .crc)) ∨
    evaluate s = .next (s.fail .addressMismatch 0x00) ∨
    ∃ v : Verdict, v.Fits s.req.fc ∧ evaluate s = .next (s.settle v) := by
  unfold evaluate
  split
  · rename_i e he; exact .inl ⟨e, he, rfl⟩
  · split
    · unfold runPdu
      split
      · rename_i i hi
        exact .inr (.inr (exec_response (port_of_decodePdu hi) hs))
      · exact .inr (.inr ⟨.unexpectedFunction, trivial, rfl⟩)
    · exact .inr (.inl rfl)

/-- The deadline tick (43_transaction.md R205). -/
theorem deadlineTick_cases (s : State) :
    (s.req.timeout ≤ s.timer + 1 ∧
      s.deadlineTick = { s with timer := s.timer + 1 }.attemptFailed .deadline) ∨
    (¬ s.req.timeout ≤ s.timer + 1 ∧ s.deadlineTick = { s with timer := s.timer + 1 }) := by
  unfold State.deadlineTick
  by_cases h : s.req.timeout ≤ s.timer + 1
  · exact .inl ⟨h, if_pos h⟩
  · exact .inr ⟨h, if_neg h⟩

/-- Receiving leaves all but the receive buffer and its length. -/
theorem receive_eq (rx : Option Byte) (s : State) :
    s.receive rx = { s with rxBuf := (s.receive rx).rxBuf, rxLen := (s.receive rx).rxLen } := by
  cases rx <;> rfl

/-- Everything a sequencer phase can do (43_transaction.md R189). -/
theorem seqPhase_cases {rx : Option Byte} {r e : Bool} {idle0 : Word} {s u : State}
    (h : seqPhase rx r e idle0 s = .next u) :
    (s.state.busy = true ∧ e = true ∧ u = s.fail .ioError 0x00) ∨
    (s.state.busy = false ∧ u = s) ∨
    (s.state = .silence ∧ e = false ∧
      ((rx = none ∧ s.req.silence ≤ idle0 ∧ u = s.startAttempt) ∨ u = s)) ∨
    (s.state = .sent ∧ e = false ∧ ((r = true ∧ u = s.advanceTx) ∨ (r = false ∧ u = s))) ∨
    (s.state = .await ∧ e = false ∧
      (((s.receive rx).frameComplete = true ∧ evaluate (s.receive rx) = .next u) ∨
       ((s.receive rx).frameComplete = false ∧ u = (s.receive rx).deadlineTick))) := by
  unfold seqPhase at h
  by_cases hbe : (s.state.busy && e) = true
  · rw [if_pos hbe] at h
    cases h
    simp only [Bool.and_eq_true] at hbe
    exact .inl ⟨hbe.1, hbe.2, rfl⟩
  · rw [if_neg hbe] at h
    have he (hb : s.state.busy = true) : e = false := by simpa [hb] using hbe
    split at h
    · rename_i hs
      have hb : s.state.busy = true := by rw [hs]; rfl
      refine .inr (.inr (.inl ⟨hs, he hb, ?_⟩))
      cases h
      unfold silenceTick
      split
      · rename_i hc; exact .inl ⟨hc.1, hc.2, rfl⟩
      · exact .inr rfl
    · rename_i hs
      have hb : s.state.busy = true := by rw [hs]; rfl
      refine .inr (.inr (.inr (.inl ⟨hs, he hb, ?_⟩)))
      cases h
      unfold sentTick
      cases r
      · exact .inr ⟨rfl, rfl⟩
      · exact .inl ⟨rfl, rfl⟩
    · rename_i hs
      have hb : s.state.busy = true := by rw [hs]; rfl
      refine .inr (.inr (.inr (.inr ⟨hs, he hb, ?_⟩)))
      unfold awaitTick at h
      by_cases hc : (s.receive rx).frameComplete = true
      · simp only [hc, if_true] at h
        exact .inl ⟨hc, h⟩
      · simp only [hc] at h
        cases h
        exact .inr ⟨by simpa using hc, rfl⟩
    all_goals
      rename_i hs
      cases h
      exact .inr (.inl ⟨by rw [hs]; rfl, rfl⟩)

/-- The sequencer phase always answers a next state. -/
theorem seqPhase_next (rx : Option Byte) (r e : Bool) (idle0 : Word) (s : State) :
    ∃ u, seqPhase rx r e idle0 s = .next u := by
  unfold seqPhase
  split
  · exact ⟨_, rfl⟩
  · split
    case h_3 hs =>
      unfold awaitTick
      simp only
      split
      · have : (s.receive rx).state = .await := by rw [receive_eq]; exact hs
        rcases evaluate_cases this with ⟨_, _, h⟩ | h | ⟨_, _, h⟩ <;> exact ⟨_, h⟩
      · exact ⟨_, rfl⟩
    all_goals exact ⟨_, rfl⟩

/-! ### The tick -/

/-- The input of the next tick is the input of the tick 0 ticks from now. -/
theorem nextInput_eq_inputAt (s : State) : s.nextInput = s.inputAt 0 := by
  unfold State.nextInput State.inputAt
  cases s.inputs <;> simp

/-- Everything a step can do (43_transaction.md R180). -/
theorem step_cases {s u : State} (h : step s = .next u) :
    (s.inputAt 0).hostDefined = true ∧
    (((s.inputAt 0).rst = true ∧ u = s.resetTick) ∨
     ((s.inputAt 0).rst = false ∧ ∃ s1 s2,
       hostPhase (s.inputAt 0).host s = .next s1 ∧
       seqPhase (s.inputAt 0).rx (s.inputAt 0).txReady (s.inputAt 0).ioErr s.idle s1 = .next s2 ∧
       u = s.endTick (s.inputAt 0) s2)) := by
  unfold step tick at h
  rw [nextInput_eq_inputAt] at h
  split at h
  · cases h
  · rename_i hd
    refine ⟨hostRefusal_eq_none.1 hd, ?_⟩
    unfold definedTick at h
    split at h
    · rename_i hr; cases h; exact .inl ⟨hr, rfl⟩
    · rename_i hr
      refine .inr ⟨by simpa using hr, ?_⟩
      obtain ⟨s1, h1, h2⟩ := andThen_next.1 h
      obtain ⟨s2, h3, h4⟩ := andThen_next.1 h2
      cases h4
      exact ⟨s1, s2, h1, h3, rfl⟩

/-- An admitted tick runs. -/
theorem step_eq_definedTick {s : State} (hd : (s.inputAt 0).hostDefined = true) :
    step s = definedTick (s.inputAt 0) s := by
  unfold step tick
  rw [nextInput_eq_inputAt, hostRefusal_eq_none.2 hd]

/-- An admitted tick answers a next state. -/
theorem step_of_defined {s : State} (hd : (s.inputAt 0).hostDefined = true) : ∃ u, step s = .next u := by
  rw [step_eq_definedTick hd]
  unfold definedTick
  split
  · exact ⟨_, rfl⟩
  · obtain ⟨s1, h1⟩ := hostPhase_next (s.inputAt 0).host s
    obtain ⟨s2, h2⟩ := seqPhase_next (s.inputAt 0).rx (s.inputAt 0).txReady (s.inputAt 0).ioErr s.idle s1
    exact ⟨s.endTick (s.inputAt 0) s2, by simp [h1, h2]⟩

/-- A tick that is not admitted is refused, a reset tick too (20_memory.md R65). -/
theorem step_of_undefined {s : State} (hd : (s.inputAt 0).hostDefined = false) :
    ∃ r, hostRefusal (s.inputAt 0).host = some r ∧ step s = .refused r := by
  cases hr : hostRefusal (s.inputAt 0).host with
  | none => rw [hostRefusal_eq_none.1 hr] at hd; cases hd
  | some r =>
    refine ⟨r, rfl, ?_⟩
    unfold step tick
    rw [nextInput_eq_inputAt, hr]

/-- The inputs move up by one each tick. -/
theorem inputAt_succ {s u : State} (h : step s = .next u) (j : Nat) : u.inputAt j = s.inputAt (j + 1) := by
  have key : u.inputs = s.inputs.tail ∧ u.ticks = s.ticks + 1 := by
    rcases step_cases h with ⟨-, ⟨-, rfl⟩ | ⟨-, s1, s2, -, -, rfl⟩⟩ <;> exact ⟨rfl, rfl⟩
  unfold State.inputAt
  rw [key.1, key.2, List.getElem?_tail, Nat.add_right_comm, Nat.add_assoc]

/-! ### What a tick's host write does, and what the sequencer leaves alone -/

/-- The host phase of an admitted tick does nothing, or one host write, which the tick's `written` names. -/
theorem hostPhase_write {t : TickInput} (hd : t.hostDefined = true) {s u : State}
    (h : hostPhase t.host s = .next u) :
    (u = s ∧ ∀ o, t.written o = none) ∨
    ∃ off v, hostWrite off v s = .next u ∧ ∀ o, t.written o = if off = o then some v else none := by
  unfold TickInput.hostDefined at hd
  unfold TickInput.written
  split at hd
  · rename_i he
    rw [he] at h ⊢
    cases h
    exact .inl ⟨rfl, fun _ => rfl⟩
  · rename_i a he
    rw [he] at h ⊢
    replace h : hostAccess a s = .next u := h
    unfold hostAccess at h
    split at h
    · rename_i ho; cases h; exact .inl ⟨rfl, fun o => by simp [ho]⟩
    · rename_i v ho; exact .inr ⟨a.off, v, h, fun o => by simp [ho]⟩
  · cases hd

/-- The command of a tick is the low byte of the word it writes to CMD (30_encoding.md R80). -/
theorem command_eq_some {t : TickInput} {c : Byte} :
    t.command = some c ↔ ∃ v, t.written 0x00 = some v ∧ v.extractLsb' 0 8 = c := by
  simp [TickInput.command]

/-- A CMD write, by its code (43_transaction.md R183). -/
theorem commandWrite_cases (v : Word) (s : State) :
    (∃ c : FunctionCode, v.extractLsb' 0 8 = c.code ∧ commandWrite v s = .next (s.transactionCommand c)) ∨
    (v.extractLsb' 0 8 = 0x40 ∧ commandWrite v s = .next (s.setCrc 0xFFFF)) ∨
    (v.extractLsb' 0 8 = 0x41 ∧ commandWrite v s = .next (s.setCrc (crcStep s.crc s.crcIn))) ∨
    (v.extractLsb' 0 8 ≠ 0x40 ∧ v.extractLsb' 0 8 ≠ 0x41 ∧
      (∀ c : FunctionCode, v.extractLsb' 0 8 ≠ c.code) ∧ commandWrite v s = .next s.illegalCommand) := by
  have e : commandWrite v s = match decodeCode (v.extractLsb' 0 8) with
    | .ok i => exec i s
    | .error _ => .next s.illegalCommand := rfl
  rw [e]
  generalize v.extractLsb' 0 8 = x
  by_cases h1 : x = 0x01
  · exact .inl ⟨.readCoils, h1, by rw [h1]; rfl⟩
  by_cases h3 : x = 0x03
  · exact .inl ⟨.readHolding, h3, by rw [h3]; rfl⟩
  by_cases h5 : x = 0x05
  · exact .inl ⟨.writeCoil, h5, by rw [h5]; rfl⟩
  by_cases h6 : x = 0x06
  · exact .inl ⟨.writeRegister, h6, by rw [h6]; rfl⟩
  by_cases h40 : x = 0x40
  · exact .inr (.inl ⟨h40, by rw [h40]; rfl⟩)
  by_cases h41 : x = 0x41
  · exact .inr (.inr (.inl ⟨h41, by rw [h41]; rfl⟩))
  · refine .inr (.inr (.inr ⟨h40, h41, fun c => by cases c <;> assumption, ?_⟩))
    simp only [decodeCode, h1, h3, h5, h6, h40, h41, if_false]

/-- An accepted command leaves the configuration, the sticky flags, the CRC unit and the line counter. -/
theorem acceptTransaction_frame (c : FunctionCode) (s : State) :
    let u := s.acceptTransaction c
    u = { s with
      state := u.state, res := u.res, dataOut := 0x0000, attempts := 0, txBuf := u.txBuf, txIdx := 0
      rxBuf := Buffer.zero, rxLen := 0, timer := 0x00000000
      req := ⟨s.slave, c.code, s.regAddr, s.value, s.retry, s.timeout, s.silence⟩ } := by
  show State.acceptTransaction c s = _
  unfold State.acceptTransaction
  split <;> rfl

/-- Everything the host phase of an admitted tick can do, with the command and the CRC_IN write that did it
(43_transaction.md R183; 20_memory.md R64). -/
theorem hostPhase_effect {t : TickInput} (hd : t.hostDefined = true) {s u : State}
    (h : hostPhase t.host s = .next u) :
    u.crc = (if t.command = some 0x40 then 0xFFFF
      else if t.command = some 0x41 then crcStep s.crc s.crcIn else s.crc) ∧
    u.crcIn = (match t.written 0x40 with
      | some v => v.extractLsb' 0 8
      | none => s.crcIn) ∧
    ((∃ c : FunctionCode, t.command = some c.code ∧ s.state.busy = false ∧ u = s.acceptTransaction c) ∨
     ((s.state.busy = true ∨ ∀ c : FunctionCode, t.command ≠ some c.code) ∧
      ∃ sl ra va re ti si ic co cr ci, u = { s with
        slave := sl, regAddr := ra, value := va, retry := re, timeout := ti, silence := si
        illCmd := ic, cmdOvr := co, crc := cr, crcIn := ci })) := by
  rcases hostPhase_write hd h with ⟨rfl, hw⟩ | ⟨off, v, hv, hw⟩
  · have hc : t.command = none := by simp [TickInput.command, hw]
    refine ⟨by simp [hc], by simp [hw], .inr ⟨.inr (by simp [hc]), ⟨_, _, _, _, _, _, _, _, _, _, rfl⟩⟩⟩
  · by_cases h0 : off = 0x00
    · subst h0
      have hc : t.command = some (v.extractLsb' 0 8) := by simp [TickInput.command, hw]
      have hi : t.written 0x40 = none := by simp [hw]
      have hv' : commandWrite v s = .next u := hv
      rw [hc, hi]
      rcases commandWrite_cases v s with ⟨c, hx, e⟩ | ⟨hx, e⟩ | ⟨hx, e⟩ | ⟨h40, h41, hx, e⟩ <;>
        rw [e] at hv' <;> cases hv'
      · rw [hx]
        have hn : c.code ≠ 0x40 ∧ c.code ≠ 0x41 := by cases c <;> decide
        unfold State.transactionCommand
        cases hb : s.state.busy
        · have hf := acceptTransaction_frame c s
          refine ⟨?_, ?_, .inl ⟨c, rfl, rfl, rfl⟩⟩
          · simp only [Bool.false_eq_true, if_false, Option.some.injEq, hn]; rw [hf]
          · simp only [Bool.false_eq_true, if_false]; rw [hf]
        · exact ⟨by simp only [if_true, Option.some.injEq, hn, if_false]; rfl, rfl, .inr ⟨.inl rfl, ⟨_, _, _, _, _, _, _, _, _, _, rfl⟩⟩⟩
      · rw [hx]
        exact ⟨rfl, rfl, .inr ⟨.inr fun c => by cases c <;> decide, ⟨_, _, _, _, _, _, _, _, _, _, rfl⟩⟩⟩
      · rw [hx]
        exact ⟨rfl, rfl, .inr ⟨.inr fun c => by cases c <;> decide, ⟨_, _, _, _, _, _, _, _, _, _, rfl⟩⟩⟩
      · refine ⟨by simp only [Option.some.injEq, h40, h41, if_false]; rfl, rfl,
          .inr ⟨.inr fun c => by simpa using hx c, ⟨_, _, _, _, _, _, _, _, _, _, rfl⟩⟩⟩
    · have hc : t.command = none := by simp only [TickInput.command, hw, h0, if_false, Option.map_none]
      rw [hc]
      unfold hostWrite at hv
      rw [if_neg h0] at hv
      repeat' split at hv
      all_goals
        cases hv
        refine ⟨rfl, ?_, .inr ⟨.inr fun c => nofun, ⟨_, _, _, _, _, _, _, _, _, _, rfl⟩⟩⟩
        simp_all [State.clearSticky]

/-- The configuration registers after the host phase of an admitted tick: each holds the bits written to it,
or what it held (20_memory.md R64; 10_state.md R42). -/
theorem hostPhase_config {t : TickInput} (hd : t.hostDefined = true) {s u : State}
    (h : hostPhase t.host s = .next u) :
    u.slave = ((t.written 0x08).map (·.extractLsb' 0 8)).getD s.slave ∧
    u.regAddr = ((t.written 0x0C).map (·.extractLsb' 0 16)).getD s.regAddr ∧
    u.value = ((t.written 0x10).map (·.extractLsb' 0 16)).getD s.value ∧
    u.retry = ((t.written 0x14).map (·.extractLsb' 0 4)).getD s.retry ∧
    u.timeout = (t.written 0x18).getD s.timeout ∧
    u.silence = (t.written 0x1C).getD s.silence ∧
    u.crcIn = ((t.written 0x40).map (·.extractLsb' 0 8)).getD s.crcIn := by
  rcases hostPhase_write hd h with ⟨rfl, hw⟩ | ⟨off, v, hv, hw⟩
  · simp only [hw, Option.map_none, Option.getD_none, and_self]
  · unfold hostWrite at hv
    simp only [hw]
    repeat' split at hv
    case isTrue h0 =>
      subst h0
      rcases commandWrite_cases v s with ⟨c, -, e⟩ | ⟨-, e⟩ | ⟨-, e⟩ | ⟨-, -, -, e⟩ <;> rw [e] at hv <;> cases hv
      · unfold State.transactionCommand
        split
        · exact ⟨rfl, rfl, rfl, rfl, rfl, rfl, rfl⟩
        · rw [acceptTransaction_frame]; exact ⟨rfl, rfl, rfl, rfl, rfl, rfl, rfl⟩
      all_goals exact ⟨rfl, rfl, rfl, rfl, rfl, rfl, rfl⟩
    all_goals
      cases hv
      first
      | (subst_vars; exact ⟨rfl, rfl, rfl, rfl, rfl, rfl, rfl⟩)
      | simp only [*, if_false, Option.map_none, Option.getD_none, and_self]

/-- The sticky flags after the host phase of an admitted tick: each that was 1 is 1, unless a 1 is written to
its bit of STATUS (10_state.md R26; 60_exceptions.md R243). -/
theorem hostPhase_sticky {t : TickInput} (hd : t.hostDefined = true) {s u : State}
    (h : hostPhase t.host s = .next u) :
    (s.illCmd = true → (∀ v, t.written 0x04 = some v → v.getLsbD 8 = false) → u.illCmd = true) ∧
    (s.cmdOvr = true → (∀ v, t.written 0x04 = some v → v.getLsbD 9 = false) → u.cmdOvr = true) := by
  rcases hostPhase_write hd h with ⟨rfl, -⟩ | ⟨off, v, hv, hw⟩
  · exact ⟨fun h _ => h, fun h _ => h⟩
  · unfold hostWrite at hv
    split at hv
    · rcases commandWrite_cases v s with ⟨c, -, e⟩ | ⟨-, e⟩ | ⟨-, e⟩ | ⟨-, -, -, e⟩ <;> rw [e] at hv <;> cases hv
      · unfold State.transactionCommand
        split
        · exact ⟨fun h _ => h, fun _ _ => rfl⟩
        · rw [acceptTransaction_frame]; exact ⟨fun h _ => h, fun h _ => h⟩
      · exact ⟨fun h _ => h, fun h _ => h⟩
      · exact ⟨fun h _ => h, fun h _ => h⟩
      · exact ⟨fun _ _ => rfl, fun h _ => h⟩
    · split at hv
      · rename_i h4
        cases hv
        have hv4 : t.written 0x04 = some v := by rw [hw, if_pos h4]
        constructor <;> intro hs hb <;> have := hb v hv4 <;> simp only [State.clearSticky, hs, this] <;> rfl
      · repeat' split at hv
        all_goals cases hv; exact ⟨fun h _ => h, fun h _ => h⟩

/-- Ending a failed attempt changes only the sequencer state, RESULT and DATA_OUT. -/
theorem attemptFailed_frame (cause : Cause) (s : State) :
    let u := s.attemptFailed cause
    u = { s with state := u.state, res := u.res, dataOut := u.dataOut } := by
  show State.attemptFailed cause s = _
  rcases attemptFailed_cases s cause with ⟨-, e⟩ | ⟨-, e⟩ <;> rw [e] <;> rfl

/-- Settling a verdict changes only the sequencer state, RESULT and DATA_OUT. -/
theorem settle_frame (v : Verdict) (s : State) :
    let u := s.settle v
    u = { s with state := u.state, res := u.res, dataOut := u.dataOut } := by
  cases v <;> rfl

/-- Evaluating a response changes only the sequencer state, RESULT and DATA_OUT. -/
theorem evaluate_frame {s u : State} (hs : s.state = .await) (h : evaluate s = .next u) :
    u = { s with state := u.state, res := u.res, dataOut := u.dataOut } := by
  rcases evaluate_cases hs with ⟨_, _, e⟩ | e | ⟨v, _, e⟩ <;> rw [e] at h <;> cases h
  · exact attemptFailed_frame .crc s
  · rfl
  · exact settle_frame v s

/-- What the sequencer phase leaves alone: the configuration, the sticky flags, the CRC unit, the latched
Request and the request frame (43_transaction.md R189; 40_crc.md R116). -/
theorem seqPhase_frame {rx : Option Byte} {r e : Bool} {idle0 : Word} {s u : State}
    (h : seqPhase rx r e idle0 s = .next u) :
    u = { s with
      state := u.state, res := u.res, dataOut := u.dataOut, attempts := u.attempts
      txIdx := u.txIdx, rxBuf := u.rxBuf, rxLen := u.rxLen, timer := u.timer } := by
  rcases seqPhase_cases h with ⟨-, -, rfl⟩ | ⟨-, rfl⟩ | ⟨-, -, ⟨-, -, rfl⟩ | rfl⟩ |
    ⟨-, -, ⟨-, rfl⟩ | ⟨-, rfl⟩⟩ | ⟨hs, -, ⟨-, hu⟩ | ⟨-, rfl⟩⟩
  · rfl
  · rfl
  · rfl
  · rfl
  · unfold State.advanceTx; split <;> rfl
  · rfl
  · have hr : (s.receive rx).state = .await := by rw [receive_eq]; exact hs
    rw [evaluate_frame hr hu, receive_eq]
  · rcases deadlineTick_cases (s.receive rx) with ⟨-, e⟩ | ⟨-, e⟩ <;> rw [e]
    · rw [attemptFailed_frame, receive_eq]
    · rw [receive_eq]

end Sys2Proof.Machine
end

