-- ==== Sys2Proof/Laws/PerInstr.lean ====
section
/-! SUPPORT. Facts about every instruction as syntax, one lemma a constructor. -/

namespace Sys2Proof.Laws.EncodedLength

/-- An instruction's encoding is a 4-byte CMD word (30_encoding.md R80), a 5-byte request PDU (R84 to R86),
or a response PDU whose length its first byte gives (R93). -/
def Statement (i : Instr) : Prop :=
  match i.port with
  | .command => (encode i).length = 4
  | .request => (encode i).length = 5
  | .response => ∃ fc rest, encode i = fc :: rest ∧ (encode i).length = pduLength fc

theorem execRc : Statement .execRc := rfl
theorem execRhr : Statement .execRhr := rfl
theorem execWsc : Statement .execWsc := rfl
theorem execWsr : Statement .execWsr := rfl
theorem crcInit : Statement .crcInit := rfl
theorem crcFeed : Statement .crcFeed := rfl
theorem reqReadCoils (a q : Half) : Statement (.reqReadCoils a q) := rfl
theorem reqReadHolding (a q : Half) : Statement (.reqReadHolding a q) := rfl
theorem reqWriteCoil (a cw : Half) : Statement (.reqWriteCoil a cw) := rfl
theorem reqWriteRegister (a v : Half) : Statement (.reqWriteRegister a v) := rfl
theorem rspReadCoils (bc d : Byte) : Statement (.rspReadCoils bc d) := ⟨_, _, rfl, rfl⟩
theorem rspReadHolding (bc : Byte) (v : Half) : Statement (.rspReadHolding bc v) := ⟨_, _, rfl, rfl⟩
theorem rspWriteCoil (a cw : Half) : Statement (.rspWriteCoil a cw) := ⟨_, _, rfl, rfl⟩
theorem rspWriteRegister (a v : Half) : Statement (.rspWriteRegister a v) := ⟨_, _, rfl, rfl⟩
theorem excReadCoils (x : Byte) : Statement (.excReadCoils x) := ⟨_, _, rfl, rfl⟩
theorem excReadHolding (x : Byte) : Statement (.excReadHolding x) := ⟨_, _, rfl, rfl⟩
theorem excWriteCoil (x : Byte) : Statement (.excWriteCoil x) := ⟨_, _, rfl, rfl⟩
theorem excWriteRegister (x : Byte) : Statement (.excWriteRegister x) := ⟨_, _, rfl, rfl⟩

end Sys2Proof.Laws.EncodedLength
end

