-- ==== Sys2Proof/Tests/Slice0.lean ====
section
/-! SUPPORT. Tests of the model, each of one step or one function, with expected results from the spec
(95_test_vectors.md and the examples of the rules), and the witnesses that the hypotheses of the claims
can be met. -/

namespace Sys2Proof.Tests

open Sys2Proof.Machine

/-! ### States and ticks to test with -/

/-- The core after reset, with its configuration registers written: slave 1, address 1, value 1. -/
def base : State :=
  { State.reset with slave := 0x01, regAddr := 0x0001, value := 0x0001, timeout := 20, silence := 4 }

/-- A latched request of function code `fc` for slave 1. -/
def request (fc : Byte) (addr value : Half) : Request := ⟨0x01, fc, addr, value, 1, 20, 4⟩

/-- AWAIT in the first attempt of that request, nothing received. -/
def awaiting (c : FunctionCode) (addr value : Half) : State :=
  { base with
    state := .await, attempts := 1, txIdx := 8, req := request c.code addr value
    txBuf := Buffer.ofList (frameEncode 0x01 (encodeRequest c addr value)) }

/-- `s` with the coming ticks. -/
def withInputs (ts : List TickInput) (s : State) : State := { s with inputs := ts }

/-- A tick with one host access and a silent transport. -/
def hostTick (off : Byte) (op : HostOp) : TickInput := ⟨false, [⟨32, off, op⟩], none, false, false⟩

/-- A tick in which nothing happens. -/
def quiet : TickInput := ⟨false, [], none, false, false⟩

/-- A tick in which the transport takes a byte. -/
def ready : TickInput := ⟨false, [], none, true, false⟩

/-- A tick in which a byte arrives. -/
def arrival (b : Byte) : TickInput := ⟨false, [], some b, false, false⟩

/-- What `f` reads in the next state, if there is one. -/
def after {α : Type} (f : State → α) (o : Host.Outcome State Fault Refusal) : Option α :=
  match o with
  | .next u => some (f u)
  | .fault _ => none
  | .refused _ => none

/-- The refusal, if there is one. -/
def refusal (o : Host.Outcome State Fault Refusal) : Option Refusal :=
  match o with
  | .refused r => some r
  | .next _ => none
  | .fault _ => none

theorem exists_of_after {p : State → Bool} {q : State → Prop} {o : Host.Outcome State Fault Refusal}
    (h : after p o = some true) (hq : ∀ u, p u = true → q u) : ∃ u, o = .next u ∧ q u := by
  cases o with
  | next u => exact ⟨u, rfl, hq u (by simpa [after] using h)⟩
  | fault r => cases h
  | refused r => cases h

/-! ### Well-formedness: an ill-formed term for each check (30_encoding.md R84, R86) -/

theorem test_wellFormed_coils_quantity : (Instr.reqReadCoils 0x0000 0x0002).wellFormed = false := by decide
theorem test_wellFormed_holding_quantity : (Instr.reqReadHolding 0x0000 0x0000).wellFormed = false := by
  decide
theorem test_wellFormed_coil_word : (Instr.reqWriteCoil 0x0007 0x00FF).wellFormed = false := by decide
theorem test_decode_refuses_quantity :
    decode .request [0x01, 0x00, 0x00, 0x00, 0x02] = .error .badQuantity ∧
    decode .request [0x03, 0x00, 0x00, 0x01, 0x00] = .error .badQuantity := ⟨rfl, rfl⟩
theorem test_decode_refuses_coil_word :
    decode .request [0x05, 0x00, 0x07, 0x00, 0xFF] = .error .badCoilWord := rfl

/-! ### Decoding: bytes written out from 30_encoding.md, one for every constructor -/

/-- R80, R81: the host commands; the low byte of the CMD word counts. -/
theorem test_decode_commands :
    decode .command [0x01, 0x00, 0x00, 0x00] = .ok .execRc ∧
    decode .command [0x03, 0xFF, 0x00, 0x00] = .ok .execRhr ∧
    decode .command [0x05, 0x00, 0xFF, 0x00] = .ok .execWsc ∧
    decode .command [0x06, 0x00, 0x00, 0xFF] = .ok .execWsr ∧
    decode .command [0x40, 0xFF, 0xFF, 0xFF] = .ok .crcInit ∧
    decode .command [0x41, 0x00, 0x00, 0x00] = .ok .crcFeed := ⟨rfl, rfl, rfl, rfl, rfl, rfl⟩

/-- R84 to R86; vectors P-E3, P-E2, P-E4, P-E5 and P-E8 of 95_test_vectors.md. -/
theorem test_decode_requests :
    decode .request [0x01, 0xFF, 0xFF, 0x00, 0x01] = .ok (.reqReadCoils 0xFFFF 0x0001) ∧
    decode .request [0x03, 0x00, 0x6B, 0x00, 0x01] = .ok (.reqReadHolding 0x006B 0x0001) ∧
    decode .request [0x05, 0x00, 0x07, 0xFF, 0x00] = .ok (.reqWriteCoil 0x0007 0xFF00) ∧
    decode .request [0x05, 0x00, 0x07, 0x00, 0x00] = .ok (.reqWriteCoil 0x0007 0x0000) ∧
    decode .request [0x06, 0x12, 0x34, 0xBE, 0xEF] = .ok (.reqWriteRegister 0x1234 0xBEEF) :=
  ⟨rfl, rfl, rfl, rfl, rfl⟩

/-- R88 to R90; vectors D6, D1, D11 and D13 of 95_test_vectors.md. -/
theorem test_decode_responses :
    decode .response [0x01, 0x01, 0xFF] = .ok (.rspReadCoils 0x01 0xFF) ∧
    decode .response [0x03, 0x02, 0x12, 0x34] = .ok (.rspReadHolding 0x02 0x1234) ∧
    decode .response [0x05, 0x00, 0x07, 0x00, 0x00] = .ok (.rspWriteCoil 0x0007 0x0000) ∧
    decode .response [0x06, 0x00, 0x01, 0x00, 0x02] = .ok (.rspWriteRegister 0x0001 0x0002) :=
  ⟨rfl, rfl, rfl, rfl⟩

/-- R91; vectors E24, D8, E25 and E26 of 95_test_vectors.md. -/
theorem test_decode_exceptions :
    decode .response [0x81, 0x01] = .ok (.excReadCoils 0x01) ∧
    decode .response [0x83, 0x02] = .ok (.excReadHolding 0x02) ∧
    decode .response [0x85, 0x03] = .ok (.excWriteCoil 0x03) ∧
    decode .response [0x86, 0x04] = .ok (.excWriteRegister 0x04) := ⟨rfl, rfl, rfl, rfl⟩

/-- R82 (vectors H2, H3) and R98: what is no instruction. -/
theorem test_decode_rejects :
    decode .command [0x00, 0x01, 0x00, 0x00] = .error .illegalCommand ∧
    decode .command [0x42, 0x00, 0x00, 0x00] = .error .illegalCommand ∧
    decode .command [0x81, 0x00, 0x00, 0x00] = .error .illegalCommand ∧
    decode .request [0x83, 0x00, 0x00, 0x00, 0x01] = .error .unknownFunction ∧
    decode .response [0x80, 0x02] = .error .unknownFunction ∧
    decode .response [0x83] = .error .wrongLength ∧
    decode .response [] = .error .wrongLength := ⟨rfl, rfl, rfl, rfl, rfl, rfl, rfl⟩

/-- The rows whose leading byte no earlier port claims, read from the table's 8-bit words. -/
theorem test_decode_table_words :
    decodeTableWord 8 0x01 = some .execRc ∧ decodeTableWord 8 0x03 = some .execRhr ∧
    decodeTableWord 8 0x05 = some .execWsc ∧ decodeTableWord 8 0x06 = some .execWsr ∧
    decodeTableWord 8 0x40 = some .crcInit ∧ decodeTableWord 8 0x41 = some .crcFeed ∧
    decodeTableWord 8 0x81 = some (.excReadCoils 0x00) ∧
    decodeTableWord 8 0x83 = some (.excReadHolding 0x00) ∧
    decodeTableWord 8 0x85 = some (.excWriteCoil 0x00) ∧
    decodeTableWord 8 0x86 = some (.excWriteRegister 0x00) ∧
    decodeTableWord 16 0x0283 = some (.excReadHolding 0x02) ∧
    decodeTableWord 8 0x02 = none := by decide

/-! ### CRC and frames (95_test_vectors.md C2 to C6, E1, E23, F2, F5, F6) -/

theorem test_crc_vectors :
    crc16 [0x00] = 0x40BF ∧ crc16 [0x01] = 0x807E ∧ crc16 [0xFF] = 0x00FF ∧ crc16 [0x80] = 0xE0BE := by
  decide +kernel

theorem test_crc_check_value :
    crc16 [0x31, 0x32, 0x33, 0x34, 0x35, 0x36, 0x37, 0x38, 0x39] = 0x4B37 := by decide +kernel

theorem test_frame_encode :
    frameEncode 0x01 [0x03, 0x00, 0x00, 0x00, 0x01] = [0x01, 0x03, 0x00, 0x00, 0x00, 0x01, 0x84, 0x0A] := by
  decide +kernel

theorem test_frame_decode :
    frameDecode [0x01, 0x83, 0x02, 0xC0, 0xF1] = .ok ⟨0x01, [0x83, 0x02]⟩ ∧
    frameDecode [0x01, 0x83, 0x02, 0xC0, 0xF0] = .error .checksumMismatch ∧
    frameDecode [0x01, 0x06, 0x00] = .error .tooShort ∧
    frameDecode [0x01, 0xFF, 0x40, 0x60] = .ok ⟨0x01, [0xFF]⟩ := by decide +kernel

/-! ### The host commands -/

/-- 43_transaction.md R230; E10: `05 01 00 09 00 01 2C 4C`. -/
theorem test_execRc_builds :
    after (fun u => (u.state, u.req.fc, u.txBuf.toList))
      (exec .execRc { base with slave := 0x05, regAddr := 0x0009 }) =
    some (.silence, 0x01, [0x05, 0x01, 0x00, 0x09, 0x00, 0x01, 0x2C, 0x4C]) := by decide +kernel

/-- 43_transaction.md R231; E5: `11 03 00 6B 00 01 F7 46`, the value ignored (P-E2). -/
theorem test_execRhr_builds :
    after (fun u => (u.state, u.req.fc, u.txBuf.toList))
      (exec .execRhr { base with slave := 0x11, regAddr := 0x006B, value := 0x1234 }) =
    some (.silence, 0x03, [0x11, 0x03, 0x00, 0x6B, 0x00, 0x01, 0xF7, 0x46]) := by decide +kernel

/-- 43_transaction.md R232; E9: `0A 05 00 03 FF 00 7D 41`, and vector H10's TXBUF0 for slave 0. -/
theorem test_execWsc_builds :
    after (fun u => (u.state, u.req.fc, u.txBuf.toList))
      (exec .execWsc { base with slave := 0x0A, regAddr := 0x0003, value := 0x0003 }) =
    some (.silence, 0x05, [0x0A, 0x05, 0x00, 0x03, 0xFF, 0x00, 0x7D, 0x41]) := by decide +kernel

/-- Vector H10: slave 0 fails at once with STATUS 0x52 and RESULT 0x9, TXBUF0 zero. -/
theorem test_execWsr_bad_slave :
    after (fun u => (hostRead 0x04 u, hostRead 0x20 u, hostRead 0x30 u))
      (exec .execWsr { base with slave := 0x00 }) =
    some (0x00000052, 0x00000009, 0x00000000) := by decide +kernel

/-- 43_transaction.md R233; E6: `F7 06 FF FF FF FF 9C C8`. -/
theorem test_execWsr_builds :
    after (fun u => (u.state, u.txBuf.toList))
      (exec .execWsr { base with slave := 0xF7, regAddr := 0xFFFF, value := 0xFFFF }) =
    some (.silence, [0xF7, 0x06, 0xFF, 0xFF, 0xFF, 0xFF, 0x9C, 0xC8]) := by decide +kernel

/-- Vector X29: a transaction command while BUSY sets CMDOVR, and the transaction goes on. -/
theorem test_execRhr_while_busy :
    after (fun u => (u.cmdOvr, u.state, u.req.fc)) (exec .execRhr (awaiting .writeRegister 0x0001 0x0001)) =
    some (true, .await, 0x06) := by decide +kernel

/-- Vector C13: bits 31:8 of CMD are ignored, the command is CRC_INIT. -/
theorem test_crcInit_ignores_high_bits :
    after (fun u => hostRead 0x44 u)
      (step (withInputs [hostTick 0x00 (.write 0xFFFFFF40)] { base with crc := 0x1234 })) =
    some 0x0000FFFF := by decide +kernel

/-- Vectors C11 and C12. -/
theorem test_crcFeed_vectors :
    after (fun u => hostRead 0x44 u) (exec .crcFeed { base with crcIn := 0x01 }) = some 0x0000807E ∧
    after (fun u => hostRead 0x44 u) (exec .crcFeed { base with crcIn := 0x00 }) = some 0x000040BF := by
  decide +kernel

/-! ### The wire PDUs -/

/-- E2 and E1: the request frames of a coil read and a register read. -/
theorem test_read_requests_frame :
    after (fun u => u.txBuf.toList) (exec (.reqReadCoils 0x0000 0x0001) (awaiting .readCoils 0 0)) =
      some [0x01, 0x01, 0x00, 0x00, 0x00, 0x01, 0xFD, 0xCA] ∧
    after (fun u => u.txBuf.toList) (exec (.reqReadHolding 0x0000 0x0001) (awaiting .readHolding 0 0)) =
      some [0x01, 0x03, 0x00, 0x00, 0x00, 0x01, 0x84, 0x0A] := by decide +kernel

/-- E3, and S1: the source's `01 06 00 01 00 01` with CRC `19 CA`. -/
theorem test_write_requests_frame :
    after (fun u => u.txBuf.toList) (exec (.reqWriteCoil 0x0000 0xFF00) (awaiting .writeCoil 0 1)) =
      some [0x01, 0x05, 0x00, 0x00, 0xFF, 0x00, 0x8C, 0x3A] ∧
    after (fun u => u.txBuf.toList) (exec (.reqWriteRegister 0x0001 0x0001) (awaiting .writeRegister 1 1)) =
      some [0x01, 0x06, 0x00, 0x01, 0x00, 0x01, 0x19, 0xCA] := by decide +kernel

/-- Vectors X21 and X17: bit 0 of the data byte; a byte count that is not 1. -/
theorem test_rspReadCoils :
    after (fun u => (hostRead 0x20 u, hostRead 0x24 u))
      (exec (.rspReadCoils 0x01 0xFE) (awaiting .readCoils 0 0)) = some (0x00000021, 0) ∧
    after (fun u => (hostRead 0x20 u, hostRead 0x24 u))
      (exec (.rspReadCoils 0x02 0x01) (awaiting .readCoils 0 0)) = some (0x00000007, 0) := by decide +kernel

/-- Vectors X26 and X16. -/
theorem test_rspReadHolding :
    after (fun u => (hostRead 0x20 u, hostRead 0x24 u))
      (exec (.rspReadHolding 0x02 0x1234) (awaiting .readHolding 0 0)) = some (0x00000011, 0x00001234) ∧
    after (fun u => (hostRead 0x20 u, hostRead 0x24 u))
      (exec (.rspReadHolding 0x04 0x0001) (awaiting .readHolding 0 0)) = some (0x00000007, 0) := by
  decide +kernel

/-- Vectors X12 and X11: value 3 is coil ON. -/
theorem test_rspWriteCoil :
    after (fun u => hostRead 0x20 u)
      (exec (.rspWriteCoil 0x0007 0xFF00) (awaiting .writeCoil 7 3)) = some 0x00000031 ∧
    after (fun u => hostRead 0x20 u)
      (exec (.rspWriteCoil 0x0007 0x0000) (awaiting .writeCoil 7 3)) = some 0x00000006 := by decide +kernel

/-- Vectors X0 and X10. -/
theorem test_rspWriteRegister :
    after (fun u => hostRead 0x20 u)
      (exec (.rspWriteRegister 0x0001 0x0001) (awaiting .writeRegister 1 1)) = some 0x00000031 ∧
    after (fun u => hostRead 0x20 u)
      (exec (.rspWriteRegister 0x0001 0x0002) (awaiting .writeRegister 1 1)) = some 0x00000006 := by
  decide +kernel

/-- Vectors X19 and S2. -/
theorem test_exceptions :
    after (fun u => hostRead 0x20 u) (exec (.excReadCoils 0x01) (awaiting .readCoils 0 0)) =
      some 0x00010104 ∧
    after (fun u => hostRead 0x20 u) (exec (.excReadHolding 0x02) (awaiting .readHolding 0 0)) =
      some 0x00020204 ∧
    after (fun u => hostRead 0x20 u) (exec (.excWriteCoil 0x03) (awaiting .writeCoil 0 0)) =
      some 0x00030304 ∧
    after (fun u => hostRead 0x20 u) (exec (.excWriteRegister 0x04) (awaiting .writeRegister 0 0)) =
      some 0x00040404 := by decide +kernel

/-- Vectors X18 (an unknown code) and D15 (an exception of another function). -/
theorem test_exception_corners :
    after (fun u => hostRead 0x20 u) (exec (.excReadHolding 0x0B) (awaiting .readHolding 0 0)) =
      some 0x000B0504 ∧
    after (fun u => hostRead 0x20 u) (exec (.excReadCoils 0x02) (awaiting .readHolding 0 0)) =
      some 0x00000005 := by decide +kernel

/-! ### One tick -/

/-- AWAIT for a register read with all of `m` received. -/
def received (m : List Byte) : State :=
  { awaiting .readHolding 0 0 with rxBuf := Buffer.ofList m, rxLen := BitVec.ofNat 4 m.length }

/-- Vector X26's last byte: E11 `01 03 02 12 34 B5 33` completes. -/
theorem test_step_completes :
    after (fun u => (hostRead 0x04 u, hostRead 0x20 u, hostRead 0x24 u, u.rxLen))
      (step (withInputs [arrival 0x33] (received [0x01, 0x03, 0x02, 0x12, 0x34, 0xB5]))) =
    some (0x00000042, 0x00000011, 0x00001234, 7) := by decide +kernel

/-- Vector X24: a corrupted address fails the checksum; with no budget left it is TIMEOUT with LASTCRC. -/
theorem test_step_checksum_exhausted :
    after (fun u => hostRead 0x20 u)
      (step (withInputs [arrival 0x33]
        { received [0x02, 0x03, 0x02, 0x12, 0x34, 0xB5] with attempts := 2 })) = some 0x00000042 := by
  decide +kernel

/-- Vector X15: with budget left it goes back to SILENCE. -/
theorem test_step_checksum_retries :
    after (fun u => (u.state, hostRead 0x20 u))
      (step (withInputs [arrival 0x33] (received [0x02, 0x03, 0x02, 0x12, 0x34, 0xB5]))) =
    some (.silence, 0x00000000) := by decide +kernel

/-- Vector X23: an exception from slave 2 is ADDRESS_MISMATCH. -/
theorem test_step_address_beats_exception :
    after (fun u => hostRead 0x20 u)
      (step (withInputs [arrival 0xF1] (received [0x02, 0x83, 0x02, 0x30]))) = some 0x00000003 := by
  decide +kernel

/-- Vector X8: a normal-length response with function code 0x04. -/
theorem test_step_unexpected_function :
    after (fun u => hostRead 0x20 u)
      (step (withInputs [arrival 0x47] (received [0x01, 0x04, 0x02, 0x12, 0x34, 0xB4]))) =
    some 0x00000005 := by decide +kernel

/-- Vector X4: the byte of an I/O error tick is not stored. -/
theorem test_step_io_error :
    after (fun u => (hostRead 0x20 u, u.rxLen))
      (step (withInputs [⟨false, [], some 0x00, true, true⟩] (received [0x01, 0x06]))) =
    some (0x00000008, 2) := by decide +kernel

/-- Vector X0, the eighth transfer: the last byte 0xCA is offered and AWAIT is entered. -/
theorem test_step_last_transfer :
    after (fun u => (u.out.txValid, u.out.txData, u.state, u.timer))
      (step (withInputs [ready]
        { awaiting .writeRegister 1 1 with state := .sent, txIdx := 7, timer := 5 })) =
    some (true, 0xCA, .await, 0) := by decide +kernel

/-- Vectors Y1 and Y2: the attempt starts when `idle` has reached SILENCE, and not in a tick with a byte. -/
theorem test_step_silence :
    after (fun u => (u.state, u.attempts))
      (step (withInputs [quiet] { awaiting .readHolding 0 0 with state := .silence, idle := 4, attempts := 0 })) =
      some (.sent, 1) ∧
    after (fun u => (u.state, u.attempts))
      (step (withInputs [quiet] { awaiting .readHolding 0 0 with state := .silence, idle := 3, attempts := 0 })) =
      some (.silence, 0) ∧
    after (fun u => (u.state, u.idle))
      (step (withInputs [arrival 0x55] { awaiting .readHolding 0 0 with state := .silence, idle := 9 })) =
      some (.silence, 0) := by decide +kernel

/-- Vectors H2 and H4: an illegal code sets ILLCMD, and writing 0x100 to STATUS clears it. -/
theorem test_step_illegal_command :
    after (fun u => hostRead 0x04 u) (step (withInputs [hostTick 0x00 (.write 0x07)] base)) =
      some 0x00000100 ∧
    after (fun u => hostRead 0x04 u)
      (step (withInputs [hostTick 0x04 (.write 0x100)] { base with illCmd := true })) = some 0 := by
  decide +kernel

/-- Vectors H6, H7, H8 and H9. -/
theorem test_step_register_writes :
    after (fun u => hostRead 0x08 u) (step (withInputs [hostTick 0x08 (.write 0x1FF)] base)) =
      some 0x000000FF ∧
    after (fun u => hostRead 0x14 u) (step (withInputs [hostTick 0x14 (.write 0x13)] base)) =
      some 0x00000003 ∧
    after (fun u => hostRead 0x48 u) (step (withInputs [hostTick 0x48 (.write 0x1)] base)) = some 0 ∧
    after (fun u => hostRead 0x20 u) (step (withInputs [hostTick 0x20 (.write 0xFFFF)] base)) = some 0 := by
  decide +kernel

/-- Vector H1, read through the host port. -/
theorem test_step_read_after_reset :
    after (fun u => u.out.readData) (step (withInputs [hostTick 0x44 .read] State.reset)) =
      some (some 0x0000FFFF) := by decide +kernel

/-- 20_memory.md R65: what is refused, in a reset tick too. -/
theorem test_step_refusals :
    refusal (step (withInputs [⟨true, [⟨8, 0x00, .write 0x01⟩], none, false, false⟩] base)) =
      some .undefinedHostAccess ∧
    refusal (step (withInputs [⟨false, [⟨8, 0x00, .write 0x01⟩], none, false, false⟩] base)) =
      some .undefinedHostAccess ∧
    refusal (step (withInputs [⟨false, [⟨32, 0x02, .read⟩], none, false, false⟩] base)) =
      some .undefinedHostAccess ∧
    refusal (step (withInputs
      [⟨false, [⟨32, 0x04, .read⟩, ⟨32, 0x20, .read⟩], none, false, false⟩] base)) =
      some .severalHostAccesses := by decide +kernel

/-- Vector Z2: a command in a reset tick is ignored. -/
theorem test_step_reset_ignores_command :
    after (fun u => (u.state, u.crc, u.slave))
      (step (withInputs [⟨true, [⟨32, 0x00, .write 0x03⟩], none, false, false⟩] base)) =
    some (.idle, 0xFFFF, 0x00) := by decide +kernel

/-- The placed word runs as the next step: a command, and an exception response. -/
theorem test_step_placed_words :
    after (fun u => u.crc) (step ({ base with crc := 0x1234 }.withFetchWord 8 0x40)) = some 0xFFFF ∧
    after (fun u => hostRead 0x20 u) (step (State.reset.withFetchWord 16 0x0283)) = some 0x00020204 := by
  decide +kernel

/-! ### Witnesses: the hypotheses of the claims can be met -/

theorem witness_DecodeInvertsEncode :
    (Instr.reqWriteCoil 0xFFFF 0xFF00).wellFormed = true ∧ (Instr.reqReadCoils 0x8001 0x0001).wellFormed = true :=
  ⟨rfl, rfl⟩

theorem witness_DecodedBytesAreExact :
    decode .command [0x41, 0xFF, 0x00, 0x80] = .ok .crcFeed ∧
    decode .response [0x86, 0xFF] = .ok (.excWriteRegister 0xFF) ∧
    Port.response ≠ Port.command := ⟨rfl, rfl, by decide⟩

theorem witness_IllegalCodeSetsOnlyIllcmd :
    ∃ v : Word, v.extractLsb' 0 8 ≠ 0x01 ∧ v.extractLsb' 0 8 ≠ 0x03 ∧ v.extractLsb' 0 8 ≠ 0x05 ∧
      v.extractLsb' 0 8 ≠ 0x06 ∧ v.extractLsb' 0 8 ≠ 0x40 ∧ v.extractLsb' 0 8 ≠ 0x41 :=
  ⟨0x00000142, by decide⟩

theorem witness_CommandWordRunsItsCode :
    (0xFFFFFF01 : Word).extractLsb' 0 8 = 0x01#8 ∧ (0x00000103 : Word).extractLsb' 0 8 = 0x03#8 ∧
    (0x00000005 : Word).extractLsb' 0 8 = 0x05#8 ∧ (0x80000006 : Word).extractLsb' 0 8 = 0x06#8 ∧
    (0x00004040 : Word).extractLsb' 0 8 = 0x40#8 ∧ (0x00000041 : Word).extractLsb' 0 8 = 0x41#8 := by decide

theorem witness_CrcCommands :
    (0xFFFFFF40 : Word).extractLsb' 0 8 = 0x40#8 ∧ (0xFFFFFF41 : Word).extractLsb' 0 8 = 0x41#8 := by decide

/-- Vector C14's beginning: CRC_INIT, then 0x01 into CRC_IN, then CRC_FEED. -/
theorem witness_CrcUnitComputesCrc16 :
    ∃ (s : State) (t0 : TickInput) (ts rest : List TickInput),
      s.inputs = t0 :: (ts ++ rest) ∧ t0.rst = false ∧ t0.hostDefined = true ∧ t0.command = some 0x40 ∧
      (∀ t ∈ ts, t.rst = false ∧ t.hostDefined = true ∧ t.command ≠ some 0x40) ∧
      fedBytes s.crcIn ts = [0x01] :=
  ⟨withInputs [hostTick 0x00 (.write 0x40), hostTick 0x40 (.write 0x01), hostTick 0x00 (.write 0x41), quiet] base,
   hostTick 0x00 (.write 0x40), [hostTick 0x40 (.write 0x01), hostTick 0x00 (.write 0x41)], [quiet],
   rfl, rfl, by decide, by decide, by decide, by decide⟩

theorem witness_SingleBitFlipBreaksChecksum :
    ∃ (m : List Byte) (i j : Nat), i = 0 ∧ i < 8 * (m.length + 2) ∧ j + 1 = 8 * (m.length + 2) :=
  ⟨[0x01, 0x06, 0x00], 0, 39, rfl, by decide, rfl⟩

theorem witness_FrameRoundTripAndBitFlip :
    ∃ (p : List Byte) (i : Nat), p ≠ [] ∧ i < 8 * (p.length + 3) ∧ i + 1 = 8 * (p.length + 3) :=
  ⟨[0xFF], 31, by decide, by decide, rfl⟩

/-- F6 and F5, and F6 with another CRC. -/
theorem witness_FrameDecodeChecksTrailingCrc :
    [0x01#8, 0x06#8, 0x00#8].length < 4 ∧ 1 ≤ [0xFF#8].length ∧
    half 0x60 0x40 = crc16 (0x01 :: [0xFF]) ∧ half 0x60 0x41 ≠ crc16 (0x01 :: [0xFF]) := by decide +kernel

theorem witness_CoilWordFollowsParity :
    (0xFFFF : Half).toNat % 2 = 1 ∧ (0xFF00 : Half).toNat % 2 = 0 := by decide

theorem witness_ExceptionKindOfEveryCode :
    ((0x00 : Byte) = 0 ∨ 4 < (0x00 : Byte).toNat) ∧ ((0x05 : Byte) = 0 ∨ 4 < (0x05 : Byte).toNat) ∧
    ((0xFF : Byte) = 0 ∨ 4 < (0xFF : Byte).toNat) := by decide

theorem witness_EchoedWriteIsAck :
    (request 0x05 7 3).fc = FunctionCode.writeCoil.code ∧
    (request 0x06 1 1).fc = FunctionCode.writeRegister.code := by decide

/-- Both ends of the legal slave addresses (vector X28 has 247). -/
theorem witness_AcceptedCommandLatchesAndBuilds :
    base.state.busy = false ∧ 1 ≤ base.slave.toNat ∧ base.slave.toNat ≤ 247 ∧
    1 ≤ { base with slave := 0xF7 }.slave.toNat ∧ { base with slave := 0xF7 }.slave.toNat ≤ 247 := by decide

/-- Program P8 has 248. -/
theorem witness_BadSlaveFailsAtOnce :
    { base with slave := 0x00 }.slave.toNat = 0 ∧ 247 < { base with slave := 0xF8 }.slave.toNat ∧
    { base with slave := 0xF8 }.state.busy = false := by decide

/-- A BUSY state, and ticks that write one bit of STATUS while the other flag is 1. -/
theorem witness_BusyCommandOnlySetsCmdovr :
    (awaiting .readCoils 0 0).state.busy = true ∧
    (∃ s u, step s = .next u ∧ s.cmdOvr = true ∧ (s.inputAt 0).rst = false ∧
      (s.inputAt 0).written 0x04 = some 0x00000100 ∧ (0x00000100 : Word).getLsbD 9 = false) ∧
    (∃ s u, step s = .next u ∧ s.illCmd = true ∧ (s.inputAt 0).rst = false ∧
      (s.inputAt 0).written 0x04 = some 0x00000200 ∧ (0x00000200 : Word).getLsbD 8 = false) :=
  ⟨by decide,
   ⟨withInputs [hostTick 0x04 (.write 0x100)] { base with cmdOvr := true }, _, rfl, rfl, rfl, by decide,
    by decide⟩,
   ⟨withInputs [hostTick 0x04 (.write 0x200)] { base with illCmd := true }, _, rfl, rfl, rfl, by decide,
    by decide⟩⟩

theorem witness_AcceptanceRunsTheRequestPdu :
    base.state.busy = false ∧ 1 ≤ base.slave.toNat ∧ base.slave.toNat ≤ 247 := by decide

theorem witness_ReadCoilsResponseGivesBit :
    (awaiting .readCoils 0 0).state = .await ∧ (awaiting .readCoils 0 0).req.fc = 0x01 ∧
    (0x00 : Byte) ≠ 0x01 := by decide

theorem witness_ReadHoldingResponseGivesValue :
    (awaiting .readHolding 0 0).state = .await ∧ (awaiting .readHolding 0 0).req.fc = 0x03 ∧
    (0x03 : Byte) ≠ 0x02 := by decide

theorem witness_WriteCoilResponseChecksEcho :
    (awaiting .writeCoil 7 3).state = .await ∧ (awaiting .writeCoil 7 3).req.fc = 0x05 ∧
    (0x0007 : Half) = (awaiting .writeCoil 7 3).req.addr ∧
    (0xFF00 : Half) = coilWord (awaiting .writeCoil 7 3).req.value ∧
    (0x0003 : Half) ≠ coilWord (awaiting .writeCoil 7 3).req.value := by decide

theorem witness_WriteRegisterResponseChecksEcho :
    (awaiting .writeRegister 1 1).state = .await ∧ (awaiting .writeRegister 1 1).req.fc = 0x06 ∧
    (0x0001 : Half) = (awaiting .writeRegister 1 1).req.addr ∧
    (0x0001 : Half) = (awaiting .writeRegister 1 1).req.value ∧
    (0x0002 : Half) ≠ (awaiting .writeRegister 1 1).req.value := by decide

theorem witness_ExceptionPduFailsWithItsCode :
    (awaiting .writeRegister 1 1).state = .await ∧
    (awaiting .writeRegister 1 1).req.fc = FunctionCode.writeRegister.code := by decide

/-- Vector D15: 0x81 in answer to 0x03. -/
theorem witness_OtherFunctionIsUnexpected :
    (Instr.excReadCoils 0x02).port = .response ∧ (awaiting .readHolding 0 0).state = .await ∧
    encode (.excReadCoils 0x02) = 0x81 :: [0x02] ∧ 0x81 ≠ (awaiting .readHolding 0 0).req.fc ∧
    0x81 ≠ exceptionOf (awaiting .readHolding 0 0).req.fc ∧
    (awaiting .readHolding 0 0).req.fc.toNat < 128 := by decide

theorem witness_PduOutsideAwaitIsDiscarded :
    (Instr.rspReadCoils 0x01 0x01).port = .response ∧ base.state ≠ .await := by decide

/-- E11 received whole, and E23. -/
theorem witness_EvaluationFollowsPduCodec :
    (received [0x01, 0x03, 0x02, 0x12, 0x34, 0xB5, 0x33]).state = .await ∧
    (received [0x01, 0x03, 0x02, 0x12, 0x34, 0xB5, 0x33]).req.fc = FunctionCode.readHolding.code ∧
    2 ≤ (received [0x01, 0x03, 0x02, 0x12, 0x34, 0xB5, 0x33]).rxLen.toNat ∧
    expectedLen 0x03 ((received [0x01, 0x03, 0x02, 0x12, 0x34, 0xB5, 0x33]).rxBuf.get 1) = some 7 ∧
    expectedLen 0x03 ((received [0x01, 0x83, 0x02, 0xC0, 0xF1]).rxBuf.get 1) = some 5 := by decide

theorem witness_StepRunsTheCommand :
    ∃ (s : State) (t : TickInput) (rest : List TickInput) (v : Word) (i : Instr),
      s.inputs = t :: rest ∧ t.rst = false ∧ t.host = [⟨32, 0x00, .write v⟩] ∧
      decode .command (wordBytes v) = .ok i :=
  ⟨withInputs [hostTick 0x00 (.write 0xAB06), quiet] base, hostTick 0x00 (.write 0xAB06), [quiet], 0xAB06,
   .execWsr, rfl, rfl, rfl, rfl⟩

/-- With a host access in the same tick, a write of TIMEOUT. -/
theorem witness_StepRunsTheResponsePdu :
    ∃ (s : State) (t : TickInput) (rest : List TickInput) (b : Byte) (f : Frame) (i : Instr),
      s.inputs = t :: rest ∧ t.rst = false ∧ t.hostDefined = true ∧ t.ioErr = false ∧ t.rx = some b ∧
      s.state = .await ∧ (s.storeRx b).frameComplete = true ∧
      frameDecode ((s.storeRx b).rxBuf.first (s.storeRx b).rxLen.toNat) = .ok f ∧
      f.address = s.req.slave ∧ decode .response f.pdu = .ok i ∧ t.host ≠ [] :=
  let t : TickInput := { arrival 0x33 with host := [⟨32, 0x18, .write 0x00000001⟩] }
  ⟨withInputs [t] (received [0x01, 0x03, 0x02, 0x12, 0x34, 0xB5]), t, [], 0x33,
   ⟨0x01, [0x03, 0x02, 0x12, 0x34]⟩, .rspReadHolding 0x02 0x1234,
   rfl, rfl, by decide, rfl, rfl, rfl, by decide, by decide +kernel, rfl, rfl, by decide⟩

theorem witness_ResetTickResetsEverything :
    ∃ (s : State) (t : TickInput) (rest : List TickInput), s.inputs = t :: rest ∧ t.rst = true ∧
      t.hostDefined = true ∧ t.host ≠ [] :=
  ⟨withInputs [⟨true, [⟨32, 0x00, .write 0x03⟩], some 0x01, false, true⟩] (awaiting .readCoils 0 0), _, [],
   rfl, rfl, by decide, by decide⟩

/-- A transfer, an arrival, and a quiet tick at the saturation value. -/
theorem witness_IdleCountsQuietTicks :
    (∃ s u, step s = .next u ∧ (s.inputAt 0).rst = false ∧ s.state = .sent ∧ (s.inputAt 0).txReady = true) ∧
    (∃ s u, step s = .next u ∧ (s.inputAt 0).rst = false ∧ (s.inputAt 0).rx ≠ none) ∧
    (∃ s u, step s = .next u ∧ (s.inputAt 0).rst = false ∧ s.state ≠ .sent ∧ (s.inputAt 0).rx = none ∧
      s.idle = 0xFFFFFFFF) :=
  ⟨⟨withInputs [ready] { awaiting .readCoils 0 0 with state := .sent, txIdx := 0 }, _, rfl, rfl, rfl, rfl⟩,
   ⟨withInputs [arrival 0x55] base, _, rfl, rfl, by decide⟩,
   ⟨withInputs [ready] { base with idle := 0xFFFFFFFF }, _, rfl, rfl, by decide, rfl, rfl⟩⟩

theorem witness_IoErrorEndsTheTransaction :
    (awaiting .readCoils 0 0).state.busy = true ∧ base.state.busy = false := by decide

/-- The boundary `idle0 = req_silence`, one below it, and a byte. -/
theorem witness_AttemptStartsAfterSilence :
    let s : State := { awaiting .readCoils 0 0 with state := .silence }
    s.state = .silence ∧ s.req.silence.toNat ≤ (4 : Word).toNat ∧ (3 : Word).toNat < s.req.silence.toNat ∧
    some (0x55 : Byte) ≠ none := by decide

theorem witness_TransferAdvancesThenAwaits :
    let s (i : BitVec 4) : State := { awaiting .readCoils 0 0 with state := .sent, txIdx := i }
    (s 0).state = .sent ∧ (s 0).txIdx.toNat < 7 ∧ (s 6).txIdx.toNat < 7 ∧ (s 7).txIdx.toNat = 7 := by decide

/-- A byte that completes; one that does not, before the deadline and at it; and no byte. -/
theorem witness_AwaitStoresThenChecksDeadline :
    let s : State := received [0x01, 0x83, 0x02, 0xC0]
    let w : State := { s with rxBuf := s.rxBuf.set s.rxLen.toNat 0xF1, rxLen := s.rxLen + 1 }
    let q : State := received [0x01]
    s.state = .await ∧ 2 ≤ w.rxLen.toNat ∧ expectedLen w.req.fc (w.rxBuf.get 1) = some w.rxLen.toNat ∧
    q.state = .await ∧ ¬ (2 ≤ q.rxLen.toNat ∧ expectedLen q.req.fc (q.rxBuf.get 1) = some q.rxLen.toNat) ∧
    ({ q with timer := 18 }.timer + 1).toNat < q.req.timeout.toNat ∧
    q.req.timeout.toNat ≤ ({ q with timer := 19 }.timer + 1).toNat := by decide

/-- The last attempt of the budget, and the one before it. -/
theorem witness_FailedAttemptRetriesWithinBudget :
    (awaiting .readCoils 0 0).attempts.toNat < 1 + (awaiting .readCoils 0 0).req.retry.toNat ∧
    1 + (awaiting .readCoils 0 0).req.retry.toNat ≤ { awaiting .readCoils 0 0 with attempts := 2 }.attempts.toNat := by
  decide

/-- A tick in SENT, one in COMPLETED, and one with a HostRead. -/
theorem witness_OutputsComeFromTheStart :
    (∃ s u, step s = .next u ∧ (s.inputAt 0).rst = false ∧ s.state = .sent) ∧
    (∃ s u, step s = .next u ∧ (s.inputAt 0).rst = false ∧ s.state = .completed) ∧
    (∃ s u, step s = .next u ∧ (s.inputAt 0).rst = false ∧ s.state ≠ .sent ∧
      (s.inputAt 0).host = [⟨32, 0x20, .read⟩]) :=
  ⟨⟨withInputs [ready] { awaiting .readCoils 0 0 with state := .sent, txIdx := 0 }, _, rfl, rfl, rfl⟩,
   ⟨withInputs [quiet] { base with state := .completed }, _, rfl, rfl, rfl⟩,
   ⟨withInputs [hostTick 0x20 .read] base, _, rfl, rfl, by decide, rfl⟩⟩

theorem witness_BufferWordsPackLittleEndian : 0 < 4 ∧ 3 < 4 := by decide

theorem witness_PlainRegistersReadTheirField :
    0x48 ≤ (0x48 : Byte).toNat ∧ 0x48 ≤ (0xFF : Byte).toNat := by decide

/-- The first read-only offset, the last register, the last offset; and ticks that write SLAVE, and nothing. -/
theorem witness_HostWriteFollowsTheMap :
    ((0x20 : Byte).toNat % 4 = 0 ∧ 0x20 ≤ (0x20 : Byte).toNat ∧ (0x20 : Byte) ≠ 0x40) ∧
    ((0x44 : Byte).toNat % 4 = 0 ∧ 0x20 ≤ (0x44 : Byte).toNat ∧ (0x44 : Byte) ≠ 0x40) ∧
    ((0xFC : Byte).toNat % 4 = 0 ∧ 0x20 ≤ (0xFC : Byte).toNat ∧ (0xFC : Byte) ≠ 0x40) ∧
    (∃ s u, step s = .next u ∧ (s.inputAt 0).rst = false ∧ (s.inputAt 0).written 0x08 = some 0x000000F7) ∧
    (∃ s u, step s = .next u ∧ (s.inputAt 0).rst = false ∧ (s.inputAt 0).written 0x08 = none) :=
  ⟨by decide, by decide, by decide,
   ⟨withInputs [hostTick 0x08 (.write 0xF7)] base, _, rfl, rfl, by decide⟩,
   ⟨withInputs [hostTick 0x08 .read] base, _, rfl, rfl, by decide⟩⟩

/-- Two accesses, one of them in a reset tick; one of 16 bits; one at offset 0x41. -/
theorem witness_OnlyUndefinedAccessesAreRefused :
    (∃ s : State, 2 ≤ (s.inputAt 0).host.length ∧ (s.inputAt 0).rst = true) ∧
    (∃ s : State, ∃ a, (s.inputAt 0).host = [a] ∧ a.bits ≠ 32 ∧ a.off.toNat % 4 = 0) ∧
    (∃ s : State, ∃ a, (s.inputAt 0).host = [a] ∧ a.bits = 32 ∧ a.off.toNat % 4 ≠ 0) :=
  ⟨⟨withInputs [⟨true, [⟨32, 0x04, .read⟩, ⟨32, 0x04, .read⟩], none, false, false⟩] base, by decide, rfl⟩,
   ⟨withInputs [⟨false, [⟨16, 0x04, .read⟩], none, false, false⟩] base, ⟨16, 0x04, .read⟩, rfl, by decide,
    by decide⟩,
   ⟨withInputs [⟨false, [⟨32, 0x41, .read⟩], none, false, false⟩] base, ⟨32, 0x41, .read⟩, rfl, by decide,
    by decide⟩⟩

theorem witness_ReadsHaveNoSideEffect : quiet.rst = false ∧ (0x44 : Byte).toNat % 4 = 0 := by decide

/-- AWAIT with two bytes of a response received meets the invariant, and a byte arrives. -/
theorem witness_EveryStepKeepsTheInvariant :
    ∃ s u : State, s.Inv ∧ step s = .next u := by
  refine ⟨withInputs [arrival 0x02] (received [0x01, 0x03]), _, ?_, rfl⟩
  refine ⟨⟨by decide, by decide⟩, ⟨by decide, ?_, by decide, fun _ _ => ⟨7, rfl, by decide⟩⟩,
    fun _ => ⟨by decide, .readHolding, rfl, rfl⟩, ⟨by decide, by decide, by decide⟩, fun _ => by decide,
    ⟨fun _ => ⟨rfl, rfl⟩, by decide, by decide⟩⟩
  intro i hi
  match i, hi with
  | 0, h => exact absurd h (by decide)
  | 1, h => exact absurd h (by decide)
  | 2, _ => rfl
  | 3, _ => rfl
  | 4, _ => rfl
  | 5, _ => rfl
  | 6, _ => rfl
  | 7, _ => rfl
  | _ + 8, _ => rfl

/-- A CMD write that is accepted, and one while BUSY. -/
theorem witness_RequestChangesOnlyOnAcceptance :
    (∃ s u, step s = .next u ∧ (s.inputAt 0).rst = false ∧ s.state.busy = false ∧
      (s.inputAt 0).command = some FunctionCode.writeRegister.code) ∧
    (∃ s u, step s = .next u ∧ (s.inputAt 0).rst = false ∧ s.state.busy = true ∧
      (s.inputAt 0).command = some FunctionCode.writeRegister.code) ∧
    (∃ s u, step s = .next u ∧ (s.inputAt 0).rst = false ∧
      ∀ c : FunctionCode, (s.inputAt 0).command ≠ some c.code) :=
  ⟨⟨withInputs [hostTick 0x00 (.write 0x06)] base, _, rfl, rfl, rfl, by decide⟩,
   ⟨withInputs [hostTick 0x00 (.write 0x06)] (awaiting .readCoils 0 0), _, rfl, rfl, rfl, by decide⟩,
   ⟨withInputs [hostTick 0x00 (.write 0x41)] base, _, rfl, rfl, by intro c; cases c <;> decide⟩⟩

/-- A reset tick, the two CRC commands, and a write of another register. -/
theorem witness_CrcChangesOnlyByItsCommands :
    (∃ s u, step s = .next u ∧ (s.inputAt 0).rst = true) ∧
    (∃ s u, step s = .next u ∧ (s.inputAt 0).rst = false ∧ (s.inputAt 0).command = some 0x40) ∧
    (∃ s u, step s = .next u ∧ (s.inputAt 0).rst = false ∧ (s.inputAt 0).command = some 0x41) ∧
    (∃ s u, step s = .next u ∧ (s.inputAt 0).rst = false ∧ (s.inputAt 0).command ≠ some 0x40 ∧
      (s.inputAt 0).command ≠ some 0x41) :=
  ⟨⟨withInputs [⟨true, [], none, false, false⟩] base, _, rfl, rfl⟩,
   ⟨withInputs [hostTick 0x00 (.write 0x40)] base, _, rfl, rfl, by decide⟩,
   ⟨withInputs [hostTick 0x00 (.write 0x41)] base, _, rfl, rfl, by decide⟩,
   ⟨withInputs [hostTick 0x44 (.write 0x40)] base, _, rfl, rfl, by decide, by decide⟩⟩

theorem witness_CrcUnitIsIndependent :
    (∃ s u : State, step s = .next u ∧ s.state = .await) ∧
    (∃ (rx : Option Byte) (r e : Bool) (idle0 : Word) (s u : State), seqPhase rx r e idle0 s = .next u ∧
      s.state = .await) :=
  ⟨⟨withInputs [hostTick 0x00 (.write 0x41)] (awaiting .readCoils 0 0), _, rfl, rfl⟩,
   ⟨some 0x01, false, false, 0, awaiting .readCoils 0 0, _, rfl, rfl⟩⟩

theorem witness_BusyCoreIgnoresConfiguration :
    ∃ s u : State, s.state.busy = true ∧ step s = .next u ∧ (s.inputAt 0).rst = false :=
  ⟨withInputs [hostTick 0x18 (.write 0x01)] (awaiting .readCoils 0 0), _, rfl, rfl, rfl⟩

/-- A reset, an I/O error, a completion, and the deadline of the last attempt. -/
theorem witness_TransactionEndsOnlyByOutcome :
    let ends (s : State) : Prop := ∃ u, step s = .next u ∧ s.state.busy = true ∧ u.state.busy = false
    ends (withInputs [⟨true, [], none, false, false⟩] (awaiting .readCoils 0 0)) ∧
    ends (withInputs [⟨false, [], none, false, true⟩] (awaiting .readCoils 0 0)) ∧
    ends (withInputs [arrival 0x33] (received [0x01, 0x03, 0x02, 0x12, 0x34, 0xB5])) ∧
    ends (withInputs [quiet] { awaiting .readCoils 0 0 with attempts := 2, timer := 19 }) := by
  refine ⟨?_, ?_, ?_, ?_⟩ <;>
    exact exists_of_after (p := fun u => !u.state.busy) (by decide +kernel) fun _ h => ⟨rfl, by simpa using h⟩

/-- The deadline of the first attempt, and a bad checksum. -/
theorem witness_OnlyTimeoutAndChecksumRetry :
    let retries (s : State) : Prop := ∃ u, step s = .next u ∧ s.state = .await ∧ u.state = .silence
    retries (withInputs [quiet] { awaiting .readCoils 0 0 with timer := 19 }) ∧
    retries (withInputs [arrival 0x32] (received [0x01, 0x03, 0x02, 0x12, 0x34, 0xB5])) := by
  refine ⟨?_, ?_⟩ <;>
    exact exists_of_after (p := fun u => decide (u.state = .silence)) (by decide +kernel)
      fun _ h => ⟨rfl, by simpa using h⟩

theorem witness_StalledTransmitterHangs :
    ∃ (k : Nat) (s : State), 0 < k ∧ s.state = .sent ∧
      ∀ j, j < k → (s.inputAt j).calm = true ∧ (s.inputAt j).txReady = false :=
  ⟨3, withInputs [quiet, hostTick 0x00 (.write 0x03), quiet]
      { awaiting .readCoils 0 0 with state := .sent, txIdx := 0 }, by decide, rfl, by decide⟩

/-- Against a silence of 4: two quiet ticks from `idle` 2, then bytes after irregular intervals, the longest 4. -/
theorem witness_BusyLineHangs :
    ∃ (k : Nat) (s : State), s.state = .silence ∧ k = 9 ∧
      ∀ j, j < k → (s.inputAt j).calm = true ∧
        (s.idle.toNat + j < s.req.silence.toNat ∨
          ∃ i, i ≤ j ∧ j ≤ i + s.req.silence.toNat ∧ (s.inputAt i).rx ≠ none) := by
  refine ⟨9, withInputs
      [quiet, quiet, arrival 0x07, arrival 0x07, quiet, quiet, quiet, arrival 0x07, quiet]
      { awaiting .readCoils 0 0 with state := .silence, idle := 2 }, rfl, rfl, ?_⟩
  intro j hj
  match j, hj with
  | 0, _ | 1, _ => exact ⟨by decide, .inl (by decide)⟩
  | 2, _ => exact ⟨by decide, .inr ⟨2, by decide, by decide, by decide⟩⟩
  | 3, _ | 4, _ | 5, _ | 6, _ => exact ⟨by decide, .inr ⟨3, by decide, by decide, by decide⟩⟩
  | 7, _ | 8, _ => exact ⟨by decide, .inr ⟨7, by decide, by decide, by decide⟩⟩
  | n + 9, h => omega

theorem witness_EightReadyTicksSendTheFrame :
    ∃ s : State, s.state = .sent ∧ s.txIdx = 0 ∧
      ∀ j, j < 8 → (s.inputAt j).calm = true ∧ (s.inputAt j).txReady = true :=
  ⟨withInputs [ready, ready, ready, ready, ready, ready, ready, ready]
      { awaiting .readCoils 0 0 with state := .sent, txIdx := 0 }, rfl, rfl, by decide⟩

/-- The first attempt and the last, with a deadline of 2, and a deadline of 0, which acts as 1. -/
theorem witness_SilentSlaveTimesOutExactly :
    (∃ (s : State) (n : Nat), s.Inv ∧ s.state = .await ∧ s.timer = 0 ∧ n = max s.req.timeout.toNat 1 ∧
      (∀ j, j < n → (s.inputAt j).calm = true ∧ (s.inputAt j).rx = none) ∧
      s.attempts.toNat < 1 + s.req.retry.toNat ∧ n = 2) ∧
    (∃ (s : State) (n : Nat), s.Inv ∧ s.state = .await ∧ s.timer = 0 ∧ n = max s.req.timeout.toNat 1 ∧
      (∀ j, j < n → (s.inputAt j).calm = true ∧ (s.inputAt j).rx = none) ∧
      s.attempts.toNat = 1 + s.req.retry.toNat ∧ s.req.timeout = 0) := by
  refine ⟨⟨withInputs [quiet, quiet]
      { awaiting .readCoils 0 0 with req := { request 0x01 0 0 with timeout := 2 } }, 2,
      ?_, rfl, rfl, rfl, by decide, by decide, rfl⟩,
    ⟨withInputs [quiet]
      { awaiting .readCoils 0 0 with req := { request 0x01 0 0 with timeout := 0, retry := 0 } }, 1,
      ?_, rfl, rfl, rfl, by decide, by decide, rfl⟩⟩
  all_goals
    refine ⟨⟨by decide, by decide⟩, ⟨by decide, ?_, by decide, fun _ h => absurd h (by decide)⟩,
      fun _ => ⟨by decide, .readCoils, rfl, rfl⟩, ⟨by decide, by decide, by decide⟩, fun _ => by decide,
      ⟨fun _ => ⟨rfl, rfl⟩, by decide, by decide⟩⟩
    intro i _
    match i with
    | 0 | 1 | 2 | 3 | 4 | 5 | 6 | 7 => rfl
    | _ + 8 => rfl

/-- E23 `01 83 02 C0 F1` (an exception, five bytes) with a quiet tick before and after its address byte, and
the four-byte PDU of E11. -/
theorem witness_DeliveredResponseIsClassified :
    ∃ (c : FunctionCode) (first : Byte) (data : List Byte) (gaps : List (Option Byte)) (last : Byte)
        (s : State),
      s.state = .await ∧ s.req.fc = c.code ∧ s.rxLen = 0 ∧ s.rxBuf = Buffer.zero ∧
      1 + data.length = responsePduLength c first ∧
      gaps.filterMap id ++ [last] = frameEncode s.req.slave (first :: data) ∧
      s.timer.toNat + gaps.length < s.req.timeout.toNat ∧
      (∀ j, j < gaps.length + 1 → (s.inputAt j).calm = true ∧
        some (s.inputAt j).rx = (gaps ++ [some last])[j]?) ∧
      1 + [0x02#8, 0x12#8, 0x34#8].length = responsePduLength c 0x03 :=
  ⟨.readHolding, 0x83, [0x02], [none, some 0x01, none, some 0x83, some 0x02, some 0xC0], 0xF1,
   withInputs [quiet, arrival 0x01, quiet, arrival 0x83, arrival 0x02, arrival 0xC0, arrival 0xF1]
     (awaiting .readHolding 0 0),
   rfl, rfl, rfl, rfl, by decide, by decide +kernel, by decide, by decide +kernel, by decide⟩

end Sys2Proof.Tests
end

section
/-! PROOFS. The invariant of the core (10_state.md R33 to R44): the reset state meets it, and every tick
keeps it. A tick's phases are followed one after the other, by what `Laws/Ops` says each can do. -/

namespace Sys2Proof.Machine

/-! ### Named values -/

/-- Every response frame has 5 to 8 bytes (30_encoding.md R93, R94). -/
theorem expectedLen_code_bounds {c : FunctionCode} {first : Byte} {n : Nat}
    (h : expectedLen c.code first = some n) : 5 ≤ n ∧ n ≤ 8 := by
  rw [expectedLen_code, Option.some.injEq] at h
  subst h
  split
  · decide
  · cases c <;> decide

/-! ### The bounds that no outcome touches -/

/-- The part of the invariant that holds in every sequencer state and does not depend on it. -/
structure State.Bounds (s : State) : Prop where
  tx : s.txIdx.toNat ≤ 8
  rx : s.rxLen.toNat ≤ 8
  rxTail : ∀ i, s.rxLen.toNat ≤ i → s.rxBuf.get i = 0x00
  attempts : s.attempts.toNat ≤ 1 + s.req.retry.toNat

theorem State.Inv.bounds {s : State} (h : s.Inv) : s.Bounds :=
  ⟨h.tx.bound, h.rx.bound, h.rx.zeroTail, h.attempts.bound⟩

/-- Outside BUSY the invariant is the bounds and what RESULT and DATA_OUT hold. -/
theorem State.Bounds.inv_of_not_busy {s : State} (h : s.Bounds) (hb : s.state.busy = false)
    (hr : s.ResultInv) : s.Inv := by
  have ne (q : SeqState) (hq : q.busy = true) : s.state ≠ q := fun e => by rw [e, hq] at hb; cases hb
  exact {
    tx := ⟨h.tx, fun e => absurd e (ne _ rfl)⟩
    rx := ⟨h.rx, h.rxTail, fun e => absurd e (ne _ rfl), fun e => absurd e (ne _ rfl)⟩
    req := fun e => by rw [hb] at e; cases e
    attempts := ⟨h.attempts, fun e => absurd e (ne _ rfl),
      fun e => e.elim (fun e => absurd e (ne _ rfl)) (fun e => absurd e (ne _ rfl))⟩
    deadline := fun e => absurd e (ne _ rfl)
    result := hr }

/-- The invariant does not read the host's registers, the line counter or the model's own fields. -/
theorem State.Inv.of_eq {s u : State} (h : s.Inv)
    (e : u = { s with
      slave := u.slave, regAddr := u.regAddr, value := u.value, retry := u.retry, timeout := u.timeout
      silence := u.silence, illCmd := u.illCmd, cmdOvr := u.cmdOvr, crc := u.crc, crcIn := u.crcIn
      idle := u.idle, inputs := u.inputs, ticks := u.ticks, out := u.out }) : u.Inv := by
  obtain ⟨⟨tx, txSent⟩, ⟨rx, rxTail, rxSent, rxAwait⟩, req, ⟨att, attSilence, attStarted⟩, deadline,
    ⟨cleared, completed, failed⟩⟩ := h
  rw [e]
  exact ⟨⟨tx, txSent⟩, ⟨rx, rxTail, rxSent, rxAwait⟩, req, ⟨att, attSilence, attStarted⟩, deadline,
    ⟨cleared, completed, failed⟩⟩

/-! ### Outcomes -/

/-- A failure with an error code and no exception fields but the device's own fits FAILED
(60_exceptions.md R241). -/
theorem State.Bounds.fail_inv {s : State} (h : s.Bounds) {code : ResultCode} (hn : code ≠ .none)
    (hok : code ≠ .ok) (x : Byte) : (s.fail code x).Inv := by
  have hb : (s.fail code x).Bounds := ⟨h.tx, h.rx, h.rxTail, h.attempts⟩
  refine hb.inv_of_not_busy rfl ⟨nofun, nofun, fun _ => ?_⟩
  rw [State.fail_res, State.fail_dataOut]
  by_cases hd : code = .deviceException
  · simp [hd]
  · simp [hd, hn, hok]

/-- TIMEOUT fits FAILED, whatever LASTCRC tells (43_transaction.md R224). -/
theorem State.Bounds.failTimeout_inv {s : State} (h : s.Bounds) (cause : Cause) :
    (s.failTimeout cause).Inv := by
  have hb : (s.failTimeout cause).Bounds := ⟨h.tx, h.rx, h.rxTail, h.attempts⟩
  refine hb.inv_of_not_busy rfl ⟨nofun, nofun, fun _ => ?_⟩
  simp

/-- An outcome fits COMPLETED when it is the one of the request's function (10_state.md R34, R35). -/
theorem State.Bounds.complete_inv {s : State} (h : s.Bounds) {k : OutcomeKind} {d : Half}
    (hk : (k = .value ∧ s.req.fc = 0x03) ∨ (k = .bit ∧ s.req.fc = 0x01 ∧ d.toNat ≤ 1) ∨
      (k = .ack ∧ (s.req.fc = 0x05 ∨ s.req.fc = 0x06) ∧ d = 0x0000)) : (s.complete k d).Inv := by
  have hb : (s.complete k d).Bounds := ⟨h.tx, h.rx, h.rxTail, h.attempts⟩
  exact hb.inv_of_not_busy rfl ⟨nofun, fun _ => ⟨rfl, rfl, rfl, rfl, hk⟩, nofun⟩

/-- A verdict that its request allows ends the transaction in a state that meets the invariant. -/
theorem State.Bounds.settle_inv {s : State} (h : s.Bounds) {v : Verdict} (hv : v.Fits s.req.fc) :
    (s.settle v).Inv := by
  cases v
  case value d => exact h.complete_inv (.inl ⟨rfl, hv⟩)
  case bit b => exact h.complete_inv (.inr (.inl ⟨rfl, hv, by cases b <;> decide⟩))
  case ack => exact h.complete_inv (.inr (.inr ⟨rfl, hv, rfl⟩))
  all_goals exact h.fail_inv (by decide) (by decide) _

/-- A retry waits in SILENCE with the request unchanged (43_transaction.md R213, R221). -/
theorem State.Bounds.retryAttempt_inv {s : State} (h : s.Bounds) (hb : s.state.busy = true)
    (hq : s.ReqInv) (hc : s.res = Result.cleared ∧ s.dataOut = 0x0000)
    (hl : s.attempts.toNat < 1 + s.req.retry.toNat) : s.retryAttempt.Inv where
  tx := ⟨h.tx, nofun⟩
  rx := ⟨h.rx, h.rxTail, nofun, nofun⟩
  req := fun _ => hq hb
  attempts := ⟨h.attempts, fun _ => hl, fun e => by cases e <;> contradiction⟩
  deadline := nofun
  result := ⟨fun _ => hc, nofun, nofun⟩

/-- A failed attempt of a BUSY core keeps the invariant, retried or not. -/
theorem State.Bounds.attemptFailed_inv {s : State} (h : s.Bounds) (hb : s.state.busy = true)
    (hq : s.ReqInv) (hc : s.res = Result.cleared ∧ s.dataOut = 0x0000) (cause : Cause) :
    (s.attemptFailed cause).Inv := by
  rcases attemptFailed_cases s cause with ⟨hl, e⟩ | ⟨-, e⟩ <;> rw [e]
  · exact h.retryAttempt_inv hb hq hc hl
  · exact h.failTimeout_inv cause

/-! ### Reset and the host phase -/

theorem inv_reset : State.reset.Inv := by
  have h : State.reset.Bounds := ⟨by decide, by decide, fun i _ => Buffer.get_zero i, by decide⟩
  exact h.inv_of_not_busy rfl ⟨fun _ => ⟨rfl, rfl⟩, nofun, nofun⟩

/-- An accepted command starts a transaction in a state that meets the invariant, whatever it began in
(43_transaction.md R184, R185, R188). -/
theorem inv_acceptTransaction (c : FunctionCode) (s : State) : (s.acceptTransaction c).Inv := by
  have cleared : (s.clearTransaction.latch c).Bounds :=
    ⟨Nat.zero_le 8, Nat.zero_le 8, fun i _ => Buffer.get_zero i, Nat.zero_le _⟩
  unfold State.acceptTransaction
  split
  · rename_i hs
    exact {
      tx := ⟨cleared.tx, nofun⟩
      rx := ⟨cleared.rx, cleared.rxTail, nofun, nofun⟩
      req := fun _ => ⟨hs, c, rfl, rfl⟩
      attempts := ⟨cleared.attempts, fun _ => Nat.add_comm 1 _ ▸ Nat.succ_pos _,
        fun e => by cases e <;> contradiction⟩
      deadline := nofun
      result := ⟨fun _ => ⟨rfl, rfl⟩, nofun, nofun⟩ }
  · have hb : ({ s.clearTransaction.latch c with txBuf := Buffer.zero } : State).Bounds :=
      ⟨cleared.tx, cleared.rx, cleared.rxTail, cleared.attempts⟩
    exact hb.fail_inv (by decide) (by decide) 0x00

theorem inv_hostPhase {t : TickInput} (hd : t.hostDefined = true) {s u : State} (hi : s.Inv)
    (h : hostPhase t.host s = .next u) : u.Inv := by
  obtain ⟨-, -, ⟨c, -, -, rfl⟩ | ⟨-, sl, ra, va, re, ti, si, ic, co, cr, ci, rfl⟩⟩ := hostPhase_effect hd h
  · exact inv_acceptTransaction c s
  · exact hi.of_eq rfl

/-! ### The sequencer phase -/

/-- StartAttempt (43_transaction.md R196) uses one of the attempts the budget allows. -/
theorem inv_startAttempt {s : State} (hi : s.Inv) (hs : s.state = .silence) : s.startAttempt.Inv := by
  have hl := hi.attempts.silence hs
  have ha : (s.attempts + 1).toNat = s.attempts.toNat + 1 := by
    have := s.req.retry.isLt
    rw [BitVec.toNat_add]
    exact Nat.mod_eq_of_lt (by simp; omega)
  exact {
    tx := ⟨by simp, by simp⟩
    rx := ⟨by simp, by simp, by simp, nofun⟩
    req := fun _ => hi.req (by rw [hs]; rfl)
    attempts := ⟨by simp only [State.startAttempt_attempts, State.startAttempt_req]; omega, nofun,
      fun _ => by simp only [State.startAttempt_attempts]; omega⟩
    deadline := nofun
    result := ⟨fun _ => hi.result.cleared (by rw [hs]; rfl), nofun, nofun⟩ }

/-- A transfer in SENT moves on to the next byte, and after the eighth to AWAIT with `timer` 0 and
nothing received (43_transaction.md R201, R203). -/
theorem inv_advanceTx {s : State} (hi : s.Inv) (hs : s.state = .sent) : s.advanceTx.Inv := by
  have hlt := hi.tx.sent hs
  have hlen := hi.rx.sent hs
  have hidx : (s.txIdx + 1).toNat = s.txIdx.toNat + 1 := by
    rw [BitVec.toNat_add]; exact Nat.mod_eq_of_lt (by simp; omega)
  have hreq := hi.req (by rw [hs]; rfl)
  have hres := hi.result.cleared (by rw [hs]; rfl)
  have hatt := hi.attempts.started (.inl hs)
  unfold State.advanceTx
  split
  · exact {
      tx := ⟨by simp only; omega, nofun⟩
      rx := ⟨hi.rx.bound, hi.rx.zeroTail, nofun, fun _ h2 => by simp [hlen] at h2⟩
      req := fun _ => hreq
      attempts := ⟨hi.attempts.bound, nofun, fun _ => hatt⟩
      deadline := fun _ => Nat.lt_of_lt_of_le Nat.zero_lt_one (Nat.le_max_right _ _)
      result := ⟨fun _ => hres, nofun, nofun⟩ }
  · rename_i h8
    have hne : (s.txIdx + 1).toNat ≠ 8 := fun e => h8 (BitVec.eq_of_toNat_eq e)
    exact {
      tx := ⟨by simp only; omega, fun _ => by simp only; omega⟩
      rx := ⟨hi.rx.bound, hi.rx.zeroTail, hi.rx.sent, hi.rx.await⟩
      req := hi.req
      attempts := ⟨hi.attempts.bound, hi.attempts.silence, hi.attempts.started⟩
      deadline := hi.deadline
      result := ⟨hi.result.cleared, hi.result.completed, hi.result.failed⟩ }

/-- In AWAIT there is room for one more byte (10_state.md R39; 30_encoding.md R95). -/
theorem State.Inv.rxLen_lt {s : State} (hi : s.Inv) (hs : s.state = .await) : s.rxLen.toNat < 8 := by
  obtain ⟨-, c, hc, -⟩ := hi.req (by rw [hs]; rfl)
  by_cases h2 : 2 ≤ s.rxLen.toNat
  · obtain ⟨n, hn, hlt⟩ := hi.rx.await hs h2
    rw [hc] at hn
    have := expectedLen_code_bounds hn
    omega
  · omega

theorem State.Inv.storeRx_rxLen_toNat {s : State} (hi : s.Inv) (hs : s.state = .await) (b : Byte) :
    (s.storeRx b).rxLen.toNat = s.rxLen.toNat + 1 := by
  have := hi.rxLen_lt hs
  rw [State.storeRx_rxLen, BitVec.toNat_add]
  exact Nat.mod_eq_of_lt (by simp; omega)

/-- A byte received in AWAIT stays within `rxbuf` (43_transaction.md R204). -/
theorem State.Inv.receive_bounds {s : State} (hi : s.Inv) (hs : s.state = .await) (rx : Option Byte) :
    (s.receive rx).Bounds := by
  cases rx with
  | none => exact hi.bounds
  | some b =>
    have hlen := hi.storeRx_rxLen_toNat hs b
    have hlt := hi.rxLen_lt hs
    refine ⟨hi.tx.bound, ?_, fun i h => ?_, hi.attempts.bound⟩
    · show (s.storeRx b).rxLen.toNat ≤ 8
      omega
    · replace h : (s.storeRx b).rxLen.toNat ≤ i := h
      show (s.rxBuf.set s.rxLen.toNat b).get i = 0x00
      rw [Buffer.get_set_ne _ (by omega)]
      exact hi.rx.zeroTail i (by omega)

theorem frameComplete_iff {s : State} : s.frameComplete = true ↔
    2 ≤ s.rxLen.toNat ∧ expectedLen s.req.fc (s.rxBuf.get 1) = some s.rxLen.toNat := by
  simp [State.frameComplete]

/-- A byte that does not complete the response leaves it shorter than its expected length (30_encoding.md
R94, R95): that length was known before the byte, or the byte is the second of at least five. -/
theorem State.Inv.storeRx_incomplete {s : State} (hi : s.Inv) (hs : s.state = .await) {b : Byte}
    (hf : (s.storeRx b).frameComplete = false) (h2 : 2 ≤ (s.storeRx b).rxLen.toNat) :
    ∃ n, expectedLen s.req.fc ((s.storeRx b).rxBuf.get 1) = some n ∧ (s.storeRx b).rxLen.toNat < n := by
  obtain ⟨-, c, hc, -⟩ := hi.req (by rw [hs]; rfl)
  have hlen := hi.storeRx_rxLen_toNat hs b
  obtain ⟨n, hn⟩ : ∃ n, expectedLen s.req.fc ((s.storeRx b).rxBuf.get 1) = some n :=
    ⟨_, hc ▸ expectedLen_code c _⟩
  have hne : (s.storeRx b).rxLen.toNat ≠ n := fun e => by
    rw [frameComplete_iff.2 ⟨h2, e ▸ hn⟩] at hf
    cases hf
  refine ⟨n, hn, ?_⟩
  by_cases h1 : s.rxLen.toNat = 1
  · have := expectedLen_code_bounds (hc ▸ hn)
    omega
  · obtain ⟨m, hm, hlt⟩ := hi.rx.await hs (by omega)
    have : m = n := by
      rw [State.storeRx_rxBuf, Buffer.get_set_ne _ h1, hm] at hn
      exact Option.some.inj hn
    omega

/-- An AWAIT tick that completes no response keeps AWAIT's part of the invariant. -/
theorem State.Inv.receive_rxInv {s : State} (hi : s.Inv) (hs : s.state = .await) {rx : Option Byte}
    (hf : (s.receive rx).frameComplete = false) : (s.receive rx).RxInv := by
  have hb := hi.receive_bounds hs rx
  refine ⟨hb.rx, hb.rxTail, fun e => ?_, fun _ h2 => ?_⟩
  · rw [receive_eq] at e
    cases hs.symm.trans e
  · cases rx with
    | none => exact hi.rx.await hs h2
    | some b => exact hi.storeRx_incomplete hs hf h2

/-- Evaluating a complete response in AWAIT keeps the invariant; of the frame it needs only the bounds. -/
theorem inv_evaluate {s u : State} (hs : s.state = .await) (hb : s.Bounds) (hq : s.ReqInv)
    (hc : s.res = Result.cleared ∧ s.dataOut = 0x0000) (h : evaluate s = .next u) : u.Inv := by
  rcases evaluate_cases hs with ⟨_, _, e⟩ | e | ⟨v, hv, e⟩ <;> rw [e] at h <;> cases h
  · exact hb.attemptFailed_inv (by rw [hs]; rfl) hq hc .crc
  · exact hb.fail_inv (by decide) (by decide) 0x00
  · exact hb.settle_inv hv

/-- An AWAIT tick without completion fails the attempt, or leaves the deadline still ahead
(43_transaction.md R205, R206). -/
theorem inv_deadlineTick {s : State} (hs : s.state = .await) (hb : s.Bounds) (hrx : s.RxInv)
    (hq : s.ReqInv) (ha : s.AttemptsInv) (hc : s.res = Result.cleared ∧ s.dataOut = 0x0000) :
    s.deadlineTick.Inv := by
  have hb' : ({ s with timer := s.timer + 1 } : State).Bounds := ⟨hb.tx, hb.rx, hb.rxTail, hb.attempts⟩
  rcases deadlineTick_cases s with ⟨-, e⟩ | ⟨hlt, e⟩ <;> rw [e]
  · exact hb'.attemptFailed_inv (by rw [hs]; rfl) hq hc .deadline
  · have ne {q : SeqState} (hq : q ≠ .await) : s.state ≠ q := fun e => hq (e.symm.trans hs)
    exact {
      tx := ⟨hb.tx, fun e => absurd e (ne (by decide))⟩
      rx := ⟨hrx.bound, hrx.zeroTail, hrx.sent, hrx.await⟩
      req := hq
      attempts := ⟨ha.bound, ha.silence, ha.started⟩
      deadline := fun _ => Nat.lt_of_lt_of_le (Nat.lt_of_not_le hlt) (Nat.le_max_left _ _)
      result := ⟨fun _ => hc, fun e => absurd e (ne (by decide)), fun e => absurd e (ne (by decide))⟩ }

/-- AWAIT: the byte of the tick is stored, and then a complete response is evaluated or the deadline is
counted (43_transaction.md R204 to R207). -/
theorem inv_awaitTick {s u : State} (hi : s.Inv) (hs : s.state = .await) {rx : Option Byte}
    (h : ((s.receive rx).frameComplete = true ∧ evaluate (s.receive rx) = .next u) ∨
      ((s.receive rx).frameComplete = false ∧ u = (s.receive rx).deadlineTick)) : u.Inv := by
  have hb := hi.receive_bounds hs rx
  have hs' : (s.receive rx).state = .await := by rw [receive_eq]; exact hs
  have hq : (s.receive rx).ReqInv := by rw [receive_eq]; exact hi.req
  have ha : (s.receive rx).AttemptsInv := by
    rw [receive_eq]; exact ⟨hi.attempts.bound, hi.attempts.silence, hi.attempts.started⟩
  have hc : (s.receive rx).res = Result.cleared ∧ (s.receive rx).dataOut = 0x0000 := by
    rw [receive_eq]; exact hi.result.cleared (by rw [hs]; rfl)
  rcases h with ⟨-, he⟩ | ⟨hf, rfl⟩
  · exact inv_evaluate hs' hb hq hc he
  · exact inv_deadlineTick hs' hb (hi.receive_rxInv hs hf) hq ha hc

theorem inv_seqPhase {rx : Option Byte} {r e : Bool} {idle0 : Word} {s u : State} (hi : s.Inv)
    (h : seqPhase rx r e idle0 s = .next u) : u.Inv := by
  rcases seqPhase_cases h with ⟨-, -, rfl⟩ | ⟨-, rfl⟩ | ⟨hs, -, ⟨-, -, rfl⟩ | rfl⟩ |
    ⟨hs, -, ⟨-, rfl⟩ | ⟨-, rfl⟩⟩ | ⟨hs, -, ha⟩
  · exact hi.bounds.fail_inv (by decide) (by decide) 0x00
  · exact hi
  · exact inv_startAttempt hi hs
  · exact hi
  · exact inv_advanceTx hi hs
  · exact hi
  · exact inv_awaitTick hi hs ha

/-- Settles O48: reset is not BUSY, its bounds are zeros, and RESULT and DATA_OUT read 0. -/
theorem resetMeetsTheInvariant : Obligations.ResetMeetsTheInvariant := inv_reset

/-- Settles O49: a reset tick gives the reset state, and otherwise the host phase and then the sequencer
phase keep the invariant, of which the end of the tick touches nothing. -/
theorem everyStepKeepsTheInvariant : Obligations.EveryStepKeepsTheInvariant := by
  intro s u hi h
  obtain ⟨hd, ⟨-, rfl⟩ | ⟨-, s1, s2, h1, h2, rfl⟩⟩ := step_cases h
  · exact inv_reset.of_eq rfl
  · exact (inv_seqPhase (inv_hostPhase hd hi h1) h2).of_eq rfl

end Sys2Proof.Machine
end

section
/-! PROOFS. What each register reads (10_state.md R24 to R41) and what every element is after reset (R58). -/

namespace Sys2Proof.Machine

/-- Settles O33, element by element; the buffers by `Buffer.get_zero`. -/
theorem resetValuesAreTheSpecs : Obligations.ResetValuesAreTheSpecs :=
  ⟨rfl, rfl, rfl, rfl, rfl, rfl, rfl, rfl, rfl, rfl, rfl, rfl, Buffer.get_zero, rfl, Buffer.get_zero, rfl,
    rfl, rfl, rfl, rfl, rfl⟩

/-! ### Words of joined fields -/

/-- A word joined from two fields is the upper one's value shifted up by the lower one's width. -/
theorem toNat_append_eq_add {n m : Nat} (x : BitVec n) (y : BitVec m) :
    (x ++ y).toNat = x.toNat * 2 ^ m + y.toNat := by
  rw [BitVec.toNat_append, ← Nat.shiftLeft_add_eq_or_of_lt y.isLt, Nat.shiftLeft_eq]

theorem bit_toNat (b : Bool) : (bit b).toNat = if b then 1 else 0 := by
  cases b <;> rfl

/-- STATUS as a sum of its fields (10_state.md R26). -/
theorem statusWord_toNat (s : State) : (statusWord s).toNat =
    (bit s.state.busy).toNat + 2 * (bit s.state.done).toNat + 16 * s.state.bits.toNat +
      256 * (bit s.illCmd).toNat + 512 * (bit s.cmdOvr).toNat := by
  simp only [statusWord, toNat_append_eq_add, BitVec.ofNat_eq_ofNat, BitVec.toNat_ofNat]
  omega

/-- RESULT as a sum of its fields (10_state.md R33). -/
theorem resultWord_toNat (r : Result) : (resultWord r).toNat =
    r.code.bits.toNat + 16 * r.outcome.bits.toNat + 64 * (bit r.lastCrc).toNat +
      256 * r.excKind.bits.toNat + 65536 * r.excCode.toNat := by
  simp only [resultWord, toNat_append_eq_add, BitVec.ofNat_eq_ofNat, BitVec.toNat_ofNat]
  omega

/-- A write to STATUS keeps a sticky flag unless its bit is written as 1 (10_state.md R26). -/
theorem clearSticky_eq (v : Word) (s : State) : s.clearSticky v = { s with
    illCmd := if v.getLsbD 8 then false else s.illCmd
    cmdOvr := if v.getLsbD 9 then false else s.cmdOvr } := by
  have keep (f w : Bool) : (f && !w) = if w then false else f := by cases w <;> simp
  simp only [State.clearSticky, keep]

/-- Settles O41: the fields of STATUS by the sequencer state, and the write by `clearSticky_eq`. -/
theorem statusWordHoldsItsFields : Obligations.StatusWordHoldsItsFields := by
  refine ⟨fun s => ?_, fun v s => congrArg Host.Outcome.next (clearSticky_eq v s), by decide⟩
  refine (statusWord_toNat s).trans ?_
  simp only [bit_toNat, ← SeqState.busy_iff, ← SeqState.done_iff]
  cases s.state <;> simp [SeqState.busy, SeqState.done, SeqState.bits]

/-- Settles O42: each field of RESULT by its named values. -/
theorem resultWordHoldsItsFields : Obligations.ResultWordHoldsItsFields := by
  intro s
  refine (resultWord_toNat s.res).trans ?_
  congr 4
  · cases s.res.code <;> rfl
  · cases s.res.outcome <;> rfl
  · cases s.res.lastCrc <;> rfl
  · cases s.res.excKind <;> rfl

/-! ### The frame buffers -/

/-- The bytes of a word joined from four (20_memory.md R72). -/
theorem extract_joined_bytes (b0 b1 b2 b3 : Byte) :
    (b3 ++ b2 ++ b1 ++ b0).extractLsb' 0 8 = b0 ∧ (b3 ++ b2 ++ b1 ++ b0).extractLsb' 8 8 = b1 ∧
    (b3 ++ b2 ++ b1 ++ b0).extractLsb' 16 8 = b2 ∧ (b3 ++ b2 ++ b1 ++ b0).extractLsb' 24 8 = b3 := by
  have above {n : Nat} (x : BitVec n) (y : Byte) (k : Nat) :
      (x ++ y).extractLsb' (8 + k) 8 = x.extractLsb' k 8 := by
    rw [BitVec.extractLsb'_append_eq_of_le (Nat.le_add_right 8 k), Nat.add_sub_cancel_left]
  exact ⟨BitVec.extractLsb'_append_eq_right, (above _ _ 0).trans BitVec.extractLsb'_append_eq_right,
    ((above _ _ 8).trans (above _ _ 0)).trans BitVec.extractLsb'_append_eq_right,
    ((above _ _ 16).trans (above _ _ 8)).trans BitVec.extractLsb'_append_eq_left⟩

theorem word0_extract (b : Buffer) {j : Nat} (hj : j < 4) : b.word0.extractLsb' (8 * j) 8 = b.get j := by
  obtain ⟨h0, h1, h2, h3⟩ := extract_joined_bytes b.b0 b.b1 b.b2 b.b3
  interval_cases j <;> assumption

theorem word1_extract (b : Buffer) {j : Nat} (hj : j < 4) :
    b.word1.extractLsb' (8 * j) 8 = b.get (4 + j) := by
  obtain ⟨h0, h1, h2, h3⟩ := extract_joined_bytes b.b4 b.b5 b.b6 b.b7
  interval_cases j <;> assumption

/-- Settles O43, one buffer word after the other. -/
theorem bufferWordsPackLittleEndian : Obligations.BufferWordsPackLittleEndian := fun s _ hj =>
  ⟨word0_extract s.txBuf hj, word1_extract s.txBuf hj, word0_extract s.rxBuf hj, word1_extract s.rxBuf hj⟩

/-! ### The plain registers -/

theorem toNat_setWidth_word {w : Nat} (x : BitVec w) (h : w ≤ 32) : (x.setWidth 32).toNat = x.toNat :=
  BitVec.toNat_setWidth_of_le h

/-- CRC_VAL reads `crc` (10_state.md R41). -/
theorem hostRead_crc_toNat (s : State) : (hostRead 0x44 s).toNat = s.crc.toNat :=
  toNat_setWidth_word s.crc (by decide)

theorem hostRead_reserved {off : Byte} (h : 0x48 ≤ off.toNat) (s : State) : hostRead off s = 0 := by
  have ne (o : Byte) (ho : o.toNat < 0x48) : ¬ off = o := fun e => by rw [e] at h; omega
  unfold hostRead
  iterate 17 rw [if_neg (ne _ (by decide))]

/-- Settles O44: the offset selects the field, and a narrow field is zero-extended. -/
theorem plainRegistersReadTheirField : Obligations.PlainRegistersReadTheirField := fun s =>
  ⟨rfl, toNat_setWidth_word s.slave (by decide), toNat_setWidth_word s.regAddr (by decide),
    toNat_setWidth_word s.value (by decide), toNat_setWidth_word s.retry (by decide), rfl, rfl,
    toNat_setWidth_word s.dataOut (by decide), toNat_setWidth_word s.attempts (by decide),
    toNat_setWidth_word s.rxLen (by decide), toNat_setWidth_word s.crcIn (by decide),
    hostRead_crc_toNat s, fun _ h => hostRead_reserved h s⟩

end Sys2Proof.Machine
end

section
/-! PROOFS. What one tick changes (10_state.md R41, R43, R47): its outputs, the latched Request, the CRC
register, and that a BUSY core does not look at the configuration registers. -/

namespace Sys2Proof.Machine

/-! ### Ticks with and without reset -/

theorem step_reset {s u : State} (h : step s = .next u) (hr : (s.inputAt 0).rst = true) :
    u = s.resetTick := by
  obtain ⟨-, ⟨-, rfl⟩ | ⟨hr', -⟩⟩ := step_cases h
  · rfl
  · rw [hr] at hr'; cases hr'

/-- A tick that is no reset is its host phase, its sequencer phase and its end (43_transaction.md R180). -/
theorem step_phases {s u : State} (h : step s = .next u) (hr : (s.inputAt 0).rst = false) :
    (s.inputAt 0).hostDefined = true ∧ ∃ s1 s2,
      hostPhase (s.inputAt 0).host s = .next s1 ∧
      seqPhase (s.inputAt 0).rx (s.inputAt 0).txReady (s.inputAt 0).ioErr s.idle s1 = .next s2 ∧
      u = s.endTick (s.inputAt 0) s2 := by
  obtain ⟨hd, ⟨hr', -⟩ | ⟨-, phases⟩⟩ := step_cases h
  · rw [hr] at hr'; cases hr'
  · exact ⟨hd, phases⟩

/-- The tick that its phases make up (43_transaction.md R180): the converse of `step_phases`. -/
theorem step_of_phases {s s1 s2 : State} (hd : (s.inputAt 0).hostDefined = true)
    (hr : (s.inputAt 0).rst = false) (h1 : hostPhase (s.inputAt 0).host s = .next s1)
    (h2 : seqPhase (s.inputAt 0).rx (s.inputAt 0).txReady (s.inputAt 0).ioErr s.idle s1 = .next s2) :
    step s = .next (s.endTick (s.inputAt 0) s2) := by
  rw [step_eq_definedTick hd]
  simp [definedTick, hr, h1, h2]

/-! ### Outputs -/

theorem txValid_iff (s : State) : s.txValid = true ↔ s.state = .sent := by
  simp [State.txValid]

theorem txData_of_sent {s : State} (h : s.state = .sent) : s.txData = s.txBuf.get s.txIdx.toNat :=
  if_pos ((txValid_iff s).2 h)

theorem txData_of_not_sent {s : State} (h : s.state ≠ .sent) : s.txData = 0x00 :=
  if_neg fun hv => h ((txValid_iff s).1 hv)

/-- Settles O40: a tick that is no reset records `outputs` of the state it starts in. -/
theorem outputsComeFromTheStart : Obligations.OutputsComeFromTheStart := by
  intro s u h hr
  obtain ⟨-, s1, s2, -, -, rfl⟩ := step_phases h hr
  refine ⟨txValid_iff s, txData_of_sent, txData_of_not_sent, s.state.done_iff, fun off hh => ?_⟩
  rw [State.endTick_out, hh]
  rfl

/-! ### The latched Request -/

theorem seqPhase_req {rx : Option Byte} {r e : Bool} {idle0 : Word} {s u : State}
    (h : seqPhase rx r e idle0 s = .next u) : u.req = s.req :=
  (congrArg State.req (seqPhase_frame h) :)

/-- What an accepted command latches (43_transaction.md R187). -/
theorem acceptTransaction_req (c : FunctionCode) (s : State) : (s.acceptTransaction c).req =
    ⟨s.slave, c.code, s.regAddr, s.value, s.retry, s.timeout, s.silence⟩ :=
  congrArg State.req (acceptTransaction_frame c s)

/-- Settles O50: the host phase accepts the command or keeps the Request, and the sequencer phase keeps it. -/
theorem requestChangesOnlyOnAcceptance : Obligations.RequestChangesOnlyOnAcceptance := by
  intro s u h hr
  obtain ⟨hd, s1, s2, h1, h2, rfl⟩ := step_phases h hr
  rw [State.endTick_req, seqPhase_req h2]
  obtain ⟨-, -, ⟨c, hc, hb, rfl⟩ | ⟨hn, _, _, _, _, _, _, _, _, _, _, rfl⟩⟩ := hostPhase_effect hd h1
  · rw [acceptTransaction_req]
    constructor
    · intro c' _ hc'
      rw [FunctionCode.code_inj.1 (Option.some.inj (hc.symm.trans hc'))]
    · rintro (hb' | hn)
      · rw [hb] at hb'; cases hb'
      · exact absurd hc (hn c)
  · refine ⟨fun c hb hc => ?_, fun _ => rfl⟩
    rcases hn with hb' | hn
    · rw [hb] at hb'; cases hb'
    · exact absurd hc (hn c)

/-! ### The CRC register -/

theorem seqPhase_crc {rx : Option Byte} {r e : Bool} {idle0 : Word} {s u : State}
    (h : seqPhase rx r e idle0 s = .next u) : u.crc = s.crc :=
  (congrArg State.crc (seqPhase_frame h) :)

/-- The CRC register after a tick that is no reset, by the tick's command (40_crc.md R114 to R116). -/
theorem step_crc {s u : State} (h : step s = .next u) (hr : (s.inputAt 0).rst = false) :
    u.crc = if (s.inputAt 0).command = some 0x40 then 0xFFFF
      else if (s.inputAt 0).command = some 0x41 then crcStep s.crc s.crcIn else s.crc := by
  obtain ⟨hd, s1, s2, h1, h2, rfl⟩ := step_phases h hr
  rw [State.endTick_crc, seqPhase_crc h2]
  exact (hostPhase_effect hd h1).1

/-- Settles O51, by the cases of the tick's command. -/
theorem crcChangesOnlyByItsCommands : Obligations.CrcChangesOnlyByItsCommands := by
  refine ⟨hostRead_crc_toNat, fun s u h =>
    ⟨fun hr => ?_, fun hr hc => ?_, fun hr hc => ?_, fun hr h40 h41 => ?_⟩⟩
  · rw [step_reset h hr]; rfl
  · rw [step_crc h hr, if_pos hc]
  · rw [step_crc h hr, hc]; rfl
  · rw [step_crc h hr, if_neg h40, if_neg h41]

/-! ### The configuration while BUSY -/

/-! #### The sequencer phase, state by state (43_transaction.md R189 to R191) -/

section
variable {rx : Option Byte} {r : Bool} {idle0 : Word} {s : State}

theorem seqPhase_of_ioErr (h : s.state.busy = true) :
    seqPhase rx r true idle0 s = .next (s.fail .ioError 0x00) := by
  simp [seqPhase, h]

theorem seqPhase_of_not_busy {e : Bool} (h : s.state.busy = false) : seqPhase rx r e idle0 s = .next s := by
  unfold seqPhase
  rw [h]
  cases hs : s.state
  case silence | sent | await => rw [hs] at h; cases h
  all_goals rfl

theorem seqPhase_of_silence (h : s.state = .silence) :
    seqPhase rx r false idle0 s = .next (silenceTick rx idle0 s) := by
  simp [seqPhase, h]

theorem seqPhase_of_sent (h : s.state = .sent) :
    seqPhase rx r false idle0 s = .next (sentTick r s) := by
  simp [seqPhase, h]

theorem seqPhase_of_await (h : s.state = .await) :
    seqPhase rx r false idle0 s = awaitTick rx s := by
  simp [seqPhase, h]

end

/-- `s` with the registers of `c` that only the host phase writes: the configuration, the sticky flags and
the CRC unit. -/
def State.withHostRegs (s c : State) : State :=
  { s with
    slave := c.slave, regAddr := c.regAddr, value := c.value, retry := c.retry, timeout := c.timeout
    silence := c.silence, illCmd := c.illCmd, cmdOvr := c.cmdOvr, crc := c.crc, crcIn := c.crcIn }

section
variable (s c : State)

theorem attemptFailed_withHostRegs (cause : Cause) :
    (s.withHostRegs c).attemptFailed cause = (s.attemptFailed cause).withHostRegs c := by
  rcases attemptFailed_cases s cause with ⟨h, e⟩ | ⟨h, e⟩ <;> rw [e]
  · exact attemptFailed_of_budget (s := s.withHostRegs c) h cause
  · exact attemptFailed_of_exhausted (s := s.withHostRegs c) h cause

theorem settle_withHostRegs (v : Verdict) : (s.withHostRegs c).settle v = (s.settle v).withHostRegs c := by
  cases v <;> rfl

theorem respond_withHostRegs (f : FunctionCode) (v : Request → Verdict) :
    (s.withHostRegs c).respond f v = (s.respond f v).withHostRegs c := by
  unfold State.respond
  rw [apply_ite (State.withHostRegs · c)]
  exact if_congr Iff.rfl (settle_withHostRegs s c _) rfl

theorem advanceTx_withHostRegs : (s.withHostRegs c).advanceTx = s.advanceTx.withHostRegs c := by
  unfold State.advanceTx
  rw [apply_ite (State.withHostRegs · c)]
  rfl

theorem silenceTick_withHostRegs (rx : Option Byte) (idle0 : Word) :
    silenceTick rx idle0 (s.withHostRegs c) = (silenceTick rx idle0 s).withHostRegs c := by
  unfold silenceTick
  rw [apply_ite (State.withHostRegs · c)]
  rfl

theorem sentTick_withHostRegs (r : Bool) :
    sentTick r (s.withHostRegs c) = (sentTick r s).withHostRegs c := by
  cases r
  · rfl
  · exact advanceTx_withHostRegs s c

theorem receive_withHostRegs (rx : Option Byte) :
    (s.withHostRegs c).receive rx = (s.receive rx).withHostRegs c := by
  cases rx <;> rfl

theorem deadlineTick_withHostRegs : (s.withHostRegs c).deadlineTick = s.deadlineTick.withHostRegs c := by
  unfold State.deadlineTick
  rw [apply_ite (State.withHostRegs · c)]
  exact if_congr Iff.rfl (attemptFailed_withHostRegs { s with timer := s.timer + 1 } c _) rfl

variable {s} {u : State}

theorem exec_response_withHostRegs {i : Instr} (hi : i.port = .response) (h : exec i s = .next u) :
    exec i (s.withHostRegs c) = .next (u.withHostRegs c) := by
  cases i <;> cases hi
  all_goals
    cases h
    exact congrArg Host.Outcome.next (respond_withHostRegs s c _ _)

theorem runPdu_withHostRegs {p : List Byte} (h : runPdu p s = .next u) :
    runPdu p (s.withHostRegs c) = .next (u.withHostRegs c) := by
  unfold runPdu at h ⊢
  split at h
  · rename_i i hi
    exact exec_response_withHostRegs c (port_of_decodePdu hi) h
  · cases h; rfl

theorem evaluate_withHostRegs (h : evaluate s = .next u) :
    evaluate (s.withHostRegs c) = .next (u.withHostRegs c) := by
  have e : (s.withHostRegs c).rxBuf.first (s.withHostRegs c).rxLen.toNat = s.rxBuf.first s.rxLen.toNat := rfl
  unfold evaluate at h ⊢
  rw [e]
  split at h
  · cases h
    exact congrArg Host.Outcome.next (attemptFailed_withHostRegs s c .crc)
  · split at h
    · rename_i ha
      exact (if_pos ha).trans (runPdu_withHostRegs c h)
    · rename_i ha
      cases h
      exact if_neg ha

theorem awaitTick_withHostRegs {rx : Option Byte} (h : awaitTick rx s = .next u) :
    awaitTick rx (s.withHostRegs c) = .next (u.withHostRegs c) := by
  unfold awaitTick at h ⊢
  simp only [receive_withHostRegs] at h ⊢
  split at h
  · rename_i hf
    exact (if_pos hf).trans (evaluate_withHostRegs c h)
  · rename_i hf
    cases h
    exact (if_neg hf).trans (congrArg Host.Outcome.next (deadlineTick_withHostRegs _ c))

/-- The sequencer phase neither reads nor writes the host's registers (43_transaction.md R189;
40_crc.md R116). -/
theorem seqPhase_withHostRegs {rx : Option Byte} {r e : Bool} {idle0 : Word}
    (h : seqPhase rx r e idle0 s = .next u) :
    seqPhase rx r e idle0 (s.withHostRegs c) = .next (u.withHostRegs c) := by
  cases hb : s.state.busy
  · rw [seqPhase_of_not_busy hb] at h
    cases h
    exact seqPhase_of_not_busy (s := s.withHostRegs c) hb
  cases e
  · rcases s.state.busy_iff.1 hb with hs | hs | hs
    · rw [seqPhase_of_silence hs] at h
      cases h
      rw [seqPhase_of_silence (s := s.withHostRegs c) hs, silenceTick_withHostRegs]
    · rw [seqPhase_of_sent hs] at h
      cases h
      rw [seqPhase_of_sent (s := s.withHostRegs c) hs, sentTick_withHostRegs]
    · rw [seqPhase_of_await hs] at h
      rw [seqPhase_of_await (s := s.withHostRegs c) hs]
      exact awaitTick_withHostRegs c h
  · rw [seqPhase_of_ioErr hb] at h
    cases h
    exact seqPhase_of_ioErr (s := s.withHostRegs c) hb

end

/-! #### The host phase of a BUSY core -/

/-- `s` with the configuration registers of `c`. -/
def State.withConfig (s c : State) : State :=
  { s with
    slave := c.slave, regAddr := c.regAddr, value := c.value, retry := c.retry, timeout := c.timeout
    silence := c.silence }

theorem transactionCommand_of_busy {s : State} (h : s.state.busy = true) (f : FunctionCode) :
    s.transactionCommand f = s.overrun := if_pos h

/-- While BUSY a CMD write reads no configuration register (43_transaction.md R186; 40_crc.md R116). -/
theorem commandWrite_withConfig {v : Word} {s u : State} (hb : s.state.busy = true)
    (h : commandWrite v s = .next u) (c : State) :
    commandWrite v (s.withConfig c) = .next (u.withConfig c) := by
  unfold commandWrite at h ⊢
  split at h
  · rename_i i hi
    rcases exec_command (port_of_decodeCode hi) s with ⟨f, rfl, e⟩ | ⟨rfl, e⟩ | ⟨rfl, e⟩ <;>
      rw [e] at h <;> cases h
    · have hx : exec (commandOf f) (s.withConfig c) = .next ((s.withConfig c).transactionCommand f) := by
        cases f <;> rfl
      rw [transactionCommand_of_busy hb]
      exact hx.trans (congrArg Host.Outcome.next (transactionCommand_of_busy (s := s.withConfig c) hb f))
    · rfl
    · rfl
  · cases h; rfl

/-- While BUSY a host write reads no configuration register: from another configuration it does the same
to everything else. -/
theorem hostWrite_withConfig {off : Byte} {v : Word} {s u : State} (hb : s.state.busy = true)
    (h : hostWrite off v s = .next u) (c : State) :
    ∃ w, hostWrite off v (s.withConfig c) = .next w ∧ w = u.withConfig w := by
  by_cases h0 : off = 0x00
  · subst h0
    exact ⟨_, commandWrite_withConfig hb h c, rfl⟩
  · unfold hostWrite at h ⊢
    rw [if_neg h0] at h ⊢
    repeat' split at h
    all_goals
      cases h
      subst_vars
      simp only [*, if_false, if_true]
      exact ⟨_, rfl, rfl⟩

theorem hostPhase_withConfig {accesses : List HostAccess} {s u : State} (hb : s.state.busy = true)
    (h : hostPhase accesses s = .next u) (c : State) :
    ∃ w, hostPhase accesses (s.withConfig c) = .next w ∧ w = u.withConfig w := by
  rcases accesses with _ | ⟨⟨bits, off, op⟩, l⟩
  · cases h; exact ⟨_, rfl, rfl⟩
  · cases op with
    | read => cases h; exact ⟨_, rfl, rfl⟩
    | write v => exact hostWrite_withConfig hb h c

/-- Settles O53: while BUSY neither phase of the tick reads a configuration register. -/
theorem busyCoreIgnoresConfiguration : Obligations.BusyCoreIgnoresConfiguration := by
  intro s u a b v r n q hb h hr
  let c : State := { s with slave := a, regAddr := b, value := v, retry := r, timeout := n, silence := q }
  obtain ⟨hd, s1, s2, h1, h2, rfl⟩ := step_phases h hr
  obtain ⟨w1, hw1, e⟩ := hostPhase_withConfig hb h1 c
  have e1 : w1 = s1.withHostRegs w1 := by rw [e]; rfl
  have hw2 := seqPhase_withHostRegs w1 h2
  rw [← e1] at hw2
  refine ⟨_, step_of_phases (s := s.withConfig c) hd hr hw1 hw2, ?_⟩
  rw [e, seqPhase_frame h2]
  rfl

end Sys2Proof.Machine
end

section
/-! PROOFS. The host interface and the serial line (20_memory.md R63 to R66, R76): which ticks are admitted,
what a reset tick, a HostRead and a HostWrite do, and that SENT puts the request frame on the line. -/

namespace Sys2Proof.Machine

/-! ### Reset ticks -/

/-- An admitted reset tick looks at nothing but how many ticks there were (70_reset_and_hazards.md R270). -/
theorem step_of_reset {s : State} (hd : (s.inputAt 0).hostDefined = true) (hr : (s.inputAt 0).rst = true) :
    step s = .next s.resetTick :=
  (step_eq_definedTick hd).trans (if_pos hr)

theorem inputAt_zero_of_cons {s : State} {t : TickInput} {rest : List TickInput} (h : s.inputs = t :: rest) :
    s.inputAt 0 = t := by
  simp [State.inputAt, h]

/-- Settles O32: the reset tick gives the reset state, and only the model's own fields are set after it. -/
theorem resetTickResetsEverything : Obligations.ResetTickResetsEverything := by
  intro s t rest hi hr hd
  obtain rfl := inputAt_zero_of_cons hi
  rw [step_of_reset hd hr, State.resetTick, hi]
  rfl

/-! ### Admitted and refused ticks -/

theorem defined_iff (a : HostAccess) : a.defined = true ↔ a.bits = 32 ∧ a.off.toNat % 4 = 0 :=
  decide_eq_true_iff

/-- The admitted host accesses, as R65 says them. -/
theorem hostDefined_iff (t : TickInput) : t.hostDefined = true ↔
    t.host = [] ∨ ∃ a, t.host = [a] ∧ a.bits = 32 ∧ a.off.toNat % 4 = 0 := by
  unfold TickInput.hostDefined
  rcases t.host with _ | ⟨a, _ | ⟨b, l⟩⟩
  · simp
  · simp [defined_iff]
  · simp

theorem step_next_iff (s : State) : (∃ u, step s = .next u) ↔ (s.inputAt 0).hostDefined = true :=
  ⟨fun ⟨_, h⟩ => (step_cases h).1, step_of_defined⟩

theorem step_of_hostRefusal {s : State} {r : Refusal} (h : hostRefusal (s.inputAt 0).host = some r) :
    step s = .refused r := by
  unfold step tick
  rw [nextInput_eq_inputAt, h]

theorem hostRefusal_of_several {l : List HostAccess} (h : 2 ≤ l.length) :
    hostRefusal l = some .severalHostAccesses := by
  rcases l with _ | ⟨a, _ | ⟨b, l⟩⟩
  · simp at h
  · simp at h
  · rfl

theorem hostRefusal_of_undefined {a : HostAccess} (h : a.bits ≠ 32 ∨ a.off.toNat % 4 ≠ 0) :
    hostRefusal [a] = some .undefinedHostAccess :=
  if_neg fun hd => by
    obtain ⟨hb, ho⟩ := (defined_iff a).1 hd
    exact h.elim (absurd hb) (absurd ho)

/-- Settles O46: admitted is `hostDefined`, and each way to miss it has its own refusal. -/
theorem onlyUndefinedAccessesAreRefused : Obligations.OnlyUndefinedAccessesAreRefused := by
  refine fun s => ⟨(step_next_iff s).trans (hostDefined_iff _),
    fun h => step_of_hostRefusal (hostRefusal_of_several h), ?_⟩
  rintro ⟨a, ha, hu⟩
  exact step_of_hostRefusal (ha ▸ hostRefusal_of_undefined hu)

/-! ### Reads -/

/-- `step_of_phases` for any input (43_transaction.md R180). -/
theorem tick_of_phases {t : TickInput} {s s1 s2 : State} (hd : t.hostDefined = true) (hr : t.rst = false)
    (h1 : hostPhase t.host s = .next s1)
    (h2 : seqPhase t.rx t.txReady t.ioErr s.idle s1 = .next s2) : tick t s = .next (s.endTick t s2) := by
  unfold tick
  rw [hostRefusal_eq_none.2 hd]
  simp [definedTick, hr, h1, h2]

/-- Settles O47: a read leaves the host phase's state as it was, so both ticks have the same sequencer phase,
and their ends differ only in the recorded word. -/
theorem readsHaveNoSideEffect : Obligations.ReadsHaveNoSideEffect := by
  intro s t off hr ho
  obtain ⟨s2, h2⟩ := seqPhase_next t.rx t.txReady t.ioErr s.idle s
  have hread : TickInput.hostDefined { t with host := [⟨32, off, .read⟩] } = true :=
    (hostDefined_iff _).2 (.inr ⟨_, rfl, rfl, ho⟩)
  rw [tick_of_phases (t := { t with host := [⟨32, off, .read⟩] }) hread hr rfl h2,
    tick_of_phases (t := { t with host := [] }) rfl hr rfl h2]
  rfl

/-! ### Writes -/

/-- From 0x20 on every word but CRC_IN is read-only or reserved (20_memory.md R64; 10_state.md R24). -/
theorem hostWrite_readOnly {off : Byte} (h : 0x20 ≤ off.toNat) (hc : off ≠ 0x40) (v : Word) (s : State) :
    hostWrite off v s = .next s := by
  have ne (o : Byte) (ho : o.toNat < 0x20) : ¬ off = o := fun e => by rw [e] at h; omega
  unfold hostWrite
  iterate 8 rw [if_neg (ne _ (by decide))]
  exact if_neg hc

/-- Settles O45: each writable offset is an arm of `hostWrite`, and of a tick's phases only the host phase
writes a configuration register. -/
theorem hostWriteFollowsTheMap : Obligations.HostWriteFollowsTheMap := by
  refine ⟨fun v s => ⟨rfl, congrArg Host.Outcome.next (clearSticky_eq v s), rfl, rfl, rfl, rfl, rfl, rfl,
    rfl, fun off _ h hc => hostWrite_readOnly h hc v s⟩, fun s u h hr => ?_⟩
  obtain ⟨hd, s1, s2, h1, h2, rfl⟩ := step_phases h hr
  have config := hostPhase_config hd h1
  rw [seqPhase_frame h2]
  exact config

/-! ### Sending the request frame -/

theorem calm_iff (t : TickInput) :
    t.calm = true ↔ t.rst = false ∧ t.ioErr = false ∧ t.hostDefined = true := by
  simp [TickInput.calm, and_assoc]

/-- While BUSY the host phase writes only the registers that are the host's (43_transaction.md R186). -/
theorem hostPhase_of_busy {t : TickInput} (hd : t.hostDefined = true) {s : State}
    (hb : s.state.busy = true) : ∃ c, hostPhase t.host s = .next (s.withHostRegs c) := by
  obtain ⟨u, hu⟩ := hostPhase_next t.host s
  obtain ⟨-, -, ⟨_, -, hb', -⟩ | ⟨-, _, _, _, _, _, _, _, _, _, _, e⟩⟩ := hostPhase_effect hd hu
  · rw [hb] at hb'; cases hb'
  · exact ⟨u, by rw [hu, e]; rfl⟩

/-- A ready tick in SENT transfers the byte at `txidx` and moves on (43_transaction.md R200, R201), whatever
the host does to its own registers meanwhile. -/
theorem step_of_sent_ready {s : State} (hs : s.state = .sent) (hc : (s.inputAt 0).calm = true)
    (hr : (s.inputAt 0).txReady = true) :
    ∃ c, step s = .next (s.endTick (s.inputAt 0) (s.advanceTx.withHostRegs c)) := by
  obtain ⟨hrst, hio, hd⟩ := (calm_iff _).1 hc
  obtain ⟨c, h1⟩ := hostPhase_of_busy hd (s := s) (by rw [hs]; rfl)
  refine ⟨c, step_of_phases hd hrst h1 ?_⟩
  rw [hio, hr, seqPhase_of_sent (s := s.withHostRegs c) hs, sentTick_withHostRegs]
  rfl

theorem endTick_txValid_of_sent {s : State} (hs : s.state = .sent) (t : TickInput) (u : State) :
    (s.endTick t u).out.txValid = true := (txValid_iff s).2 hs

theorem endTick_txData_of_sent {s : State} (hs : s.state = .sent) (t : TickInput) (u : State) :
    (s.endTick t u).out.txData = s.txBuf.get s.txIdx.toNat := txData_of_sent hs

theorem advanceTx_of_last {s : State} (h : s.txIdx.toNat = 7) :
    s.advanceTx = { s with txIdx := s.txIdx + 1, timer := 0x00000000, state := .await } :=
  if_pos (by rw [BitVec.eq_of_toNat_eq (y := 7#4) h]; rfl)

theorem advanceTx_of_earlier {s : State} (h : s.txIdx.toNat < 7) :
    s.advanceTx = { s with txIdx := s.txIdx + 1 } ∧ (s.txIdx + 1).toNat = s.txIdx.toNat + 1 := by
  have e : (s.txIdx + 1).toNat = s.txIdx.toNat + 1 := by
    rw [BitVec.toNat_add]
    exact Nat.mod_eq_of_lt (by simp; omega)
  refine ⟨if_neg fun h8 => ?_, e⟩
  have : (s.txIdx + 1).toNat = 8 := congrArg BitVec.toNat h8
  omega

/-- A run takes its first step first. -/
theorem run_succ_of_step {s u : State} (h : step s = .next u) (k : Nat) :
    Host.Core.run Sys2Proof.core (k + 1) s = Host.Core.run Sys2Proof.core k u := by
  have h' : Sys2Proof.core.step s = .next u := h
  simp only [Host.Core.run, h']

/-- The next `n` ticks put the bytes of `txbuf` from `txidx` on on the line, one a tick, and end in AWAIT with
`timer` 0 and the frame, the Request and ATTEMPTS as they are. -/
def State.SendsThenAwaits (s : State) (n : Nat) : Prop :=
  (∀ j, j < n → ∃ u, Host.Core.run Sys2Proof.core (j + 1) s = .next u ∧
    u.out.txValid = true ∧ u.out.txData = s.txBuf.get (s.txIdx.toNat + j)) ∧
  ∃ u, Host.Core.run Sys2Proof.core n s = .next u ∧ u.state = .await ∧ u.timer = 0 ∧
    u.txBuf = s.txBuf ∧ u.req = s.req ∧ u.attempts = s.attempts

/-- Ready ticks send what is left of the frame: by induction on how many bytes follow the one at `txidx`. -/
theorem sendsThenAwaits_of_ready (n : Nat) : ∀ s : State, s.state = .sent → s.txIdx.toNat + n = 7 →
    (∀ j, j < n + 1 → (s.inputAt j).calm = true ∧ (s.inputAt j).txReady = true) →
    s.SendsThenAwaits (n + 1) := by
  induction n with
  | zero =>
    intro s hs hidx hin
    obtain ⟨hc, hr⟩ := hin 0 Nat.one_pos
    obtain ⟨c, hstep⟩ := step_of_sent_ready hs hc hr
    rw [advanceTx_of_last hidx] at hstep
    refine ⟨fun j hj => ?_, _, run_succ_of_step hstep 0, rfl, rfl, rfl, rfl, rfl⟩
    obtain rfl : j = 0 := by omega
    exact ⟨_, run_succ_of_step hstep 0, endTick_txValid_of_sent hs _ _, endTick_txData_of_sent hs _ _⟩
  | succ n ih =>
    intro s hs hidx hin
    obtain ⟨hc, hr⟩ := hin 0 (Nat.succ_pos _)
    obtain ⟨c, hstep⟩ := step_of_sent_ready hs hc hr
    obtain ⟨hadv, hnext⟩ := advanceTx_of_earlier (s := s) (by omega)
    rw [hadv] at hstep
    have hin' (j : Nat) (hj : j < n + 1) := hin (j + 1) (Nat.succ_lt_succ hj)
    simp only [← inputAt_succ hstep] at hin'
    obtain ⟨hbytes, w, hw, hend⟩ := ih _ (by exact hs)
      (by show (s.txIdx + 1).toNat + n = 7; omega) hin'
    refine ⟨fun j hj => ?_, w, (run_succ_of_step hstep _).trans hw, hend⟩
    cases j with
    | zero =>
      exact ⟨_, run_succ_of_step hstep 0, endTick_txValid_of_sent hs _ _, endTick_txData_of_sent hs _ _⟩
    | succ j =>
      obtain ⟨u, hu, hv, hdata⟩ := hbytes j (Nat.lt_of_succ_lt_succ hj)
      refine ⟨u, (run_succ_of_step hstep _).trans hu, hv, hdata.trans ?_⟩
      show s.txBuf.get ((s.txIdx + 1).toNat + j) = s.txBuf.get (s.txIdx.toNat + (j + 1))
      rw [hnext, Nat.add_assoc, Nat.add_comm 1 j]

/-- Settles O58: from `txidx` 0 seven bytes follow the first. -/
theorem eightReadyTicksSendTheFrame : Obligations.EightReadyTicksSendTheFrame := by
  intro s hs hidx hin
  have hsend := sendsThenAwaits_of_ready 7 s hs (by rw [hidx]; rfl) hin
  simpa [State.SendsThenAwaits, hidx] using hsend

end Sys2Proof.Machine
end

section
/-! PROOFS. The encoding (30_encoding.md): the decoder at each port accepts exactly the bytes of its
well-formed instructions, and what a CMD word runs. -/

namespace Sys2Proof.Machine

/-! ### The parts of a PDU -/

@[simp] theorem decodeOperands_be16 (mk : Half → Half → Except Reject Instr) (a v : Half) :
    decodeOperands mk (be16 a ++ be16 v) = mk a v := by
  simp [decodeOperands, be16]

@[simp] theorem decodeRegisterData_be16 (bc : Byte) (v : Half) :
    decodeRegisterData (bc :: be16 v) = .ok (.rspReadHolding bc v) := by
  simp [decodeRegisterData, be16]

/-- Two 16-bit operands are the four bytes of two fields (30_encoding.md R84 to R86). -/
theorem decodeOperands_eq_ok {mk : Half → Half → Except Reject Instr} {m : List Byte} {i : Instr} :
    decodeOperands mk m = .ok i ↔ ∃ a v, m = be16 a ++ be16 v ∧ mk a v = .ok i := by
  constructor
  · intro h
    unfold decodeOperands at h
    split at h
    · exact ⟨_, _, by simp, h⟩
    · cases h
  · rintro ⟨a, v, rfl, h⟩
    rwa [decodeOperands_be16]

theorem decodeCoilData_eq_ok {m : List Byte} {i : Instr} :
    decodeCoilData m = .ok i ↔ ∃ bc d, m = [bc, d] ∧ i = .rspReadCoils bc d := by
  constructor
  · intro h
    unfold decodeCoilData at h
    split at h
    · cases h; exact ⟨_, _, rfl, rfl⟩
    · cases h
  · rintro ⟨bc, d, rfl, rfl⟩; rfl

theorem decodeRegisterData_eq_ok {m : List Byte} {i : Instr} :
    decodeRegisterData m = .ok i ↔ ∃ bc v, m = bc :: be16 v ∧ i = .rspReadHolding bc v := by
  constructor
  · intro h
    unfold decodeRegisterData at h
    split at h
    · cases h; exact ⟨_, _, by rw [be16_half], rfl⟩
    · cases h
  · rintro ⟨bc, v, rfl, rfl⟩
    exact decodeRegisterData_be16 bc v

theorem decodeException_eq_ok {mk : Byte → Instr} {m : List Byte} {i : Instr} :
    decodeException mk m = .ok i ↔ ∃ x, m = [x] ∧ i = mk x := by
  constructor
  · intro h
    unfold decodeException at h
    split at h
    · cases h; exact ⟨_, rfl, rfl⟩
    · cases h
  · rintro ⟨x, rfl, rfl⟩; rfl

/-! ### What each port accepts -/

/-- A code is accepted exactly when it begins a command's word (30_encoding.md R81, R82). -/
theorem decodeCode_eq_ok {c : Byte} {i : Instr} :
    decodeCode c = .ok i ↔ i.port = .command ∧ encode i = [c, 0x00, 0x00, 0x00] := by
  constructor
  · intro h
    refine ⟨port_of_decodeCode h, ?_⟩
    unfold decodeCode at h
    repeat' split at h
    all_goals cases h
    all_goals subst_vars; rfl
  · rintro ⟨hp, he⟩
    cases i <;> cases hp <;> cases he <;> rfl

/-- A check on operands that passes leaves the instruction it guards. -/
theorem guarded_eq_ok {b : Bool} {i j : Instr} {e : Reject} :
    (if b then Except.ok i else .error e) = .ok j ↔ b = true ∧ i = j := by
  cases b <;> simp

/-- The request port accepts exactly the bytes of the well-formed requests (30_encoding.md R84 to R86). -/
theorem decodeRequest_eq_ok {m : List Byte} {i : Instr} :
    decodeRequest m = .ok i ↔ i.port = .request ∧ i.wellFormed = true ∧ m = encode i := by
  constructor
  · intro h
    rcases m with _ | ⟨fc, rest⟩
    · cases h
    simp only [decodeRequest] at h
    iterate 3
      split at h
      · obtain ⟨a, v, rfl, hmk⟩ := decodeOperands_eq_ok.1 h
        obtain ⟨hv, rfl⟩ := guarded_eq_ok.1 hmk
        subst_vars
        exact ⟨rfl, hv, rfl⟩
    split at h
    · obtain ⟨a, v, rfl, hmk⟩ := decodeOperands_eq_ok.1 h; cases hmk; subst_vars; exact ⟨rfl, rfl, rfl⟩
    cases h
  · rintro ⟨hp, hw, rfl⟩
    cases i with
    | reqReadCoils a q => simpa [decodeRequest, encode, Instr.wellFormed] using hw
    | reqReadHolding a q => simpa [decodeRequest, encode, Instr.wellFormed] using hw
    | reqWriteCoil a cw => simpa [decodeRequest, encode, Instr.wellFormed] using hw
    | reqWriteRegister a v => simp [decodeRequest, encode]
    | _ => cases hp

/-- The response port accepts exactly the bytes of the responses and exceptions (30_encoding.md R88 to
R91). -/
theorem decodePdu_eq_ok {m : List Byte} {i : Instr} :
    decodePdu m = .ok i ↔ i.port = .response ∧ m = encode i := by
  constructor
  · intro h
    refine ⟨port_of_decodePdu h, ?_⟩
    rcases m with _ | ⟨fc, rest⟩
    · cases h
    simp only [decodePdu] at h
    split at h
    · obtain ⟨bc, d, rfl, rfl⟩ := decodeCoilData_eq_ok.1 h; subst_vars; rfl
    split at h
    · obtain ⟨bc, v, rfl, rfl⟩ := decodeRegisterData_eq_ok.1 h; subst_vars; rfl
    iterate 2
      split at h
      · obtain ⟨a, v, rfl, hmk⟩ := decodeOperands_eq_ok.1 h; cases hmk; subst_vars; rfl
    iterate 4
      split at h
      · obtain ⟨x, rfl, rfl⟩ := decodeException_eq_ok.1 h; subst_vars; rfl
    cases h
  · rintro ⟨hp, rfl⟩
    cases i with
    | rspReadCoils bc d => rfl
    | rspReadHolding bc v => exact decodeRegisterData_be16 bc v
    | rspWriteCoil a cw => simp [decodePdu, encode]
    | rspWriteRegister a v => simp [decodePdu, encode]
    | excReadCoils x | excReadHolding x | excWriteCoil x | excWriteRegister x => rfl
    | _ => cases hp

/-- A CMD word is four bytes, of which the first is a command's code (30_encoding.md R80). -/
theorem decodeCommand_eq_ok {m : List Byte} {i : Instr} :
    decodeCommand m = .ok i ↔ m.length = 4 ∧ ∃ c, m.head? = some c ∧ decodeCode c = .ok i := by
  constructor
  · intro h
    unfold decodeCommand at h
    split at h
    · exact ⟨rfl, _, rfl, h⟩
    · cases h
  · rintro ⟨hm, c, hc, h⟩
    match m, hm with
    | [_, _, _, _], _ => cases hc; exact h

/-- Only requests have restricted operands (30_encoding.md R84, R86). -/
theorem wellFormed_of_port_ne_request {i : Instr} (h : i.port ≠ .request) : i.wellFormed = true := by
  cases i with
  | reqReadCoils | reqReadHolding | reqWriteCoil | reqWriteRegister => exact absurd rfl h
  | _ => rfl

/-- The code of a command begins its word, whose other bytes are zero (30_encoding.md R80). -/
theorem encode_of_command {i : Instr} (h : i.port = .command) :
    ∃ c, encode i = [c, 0x00, 0x00, 0x00] := by
  cases i <;> cases h <;> exact ⟨_, rfl⟩

/-- Settles O1: each port accepts the bytes of its own well-formed instructions. -/
theorem decodeInvertsEncode : Obligations.DecodeInvertsEncode := by
  intro i hw
  cases hp : i.port with
  | command =>
    obtain ⟨c, hc⟩ := encode_of_command hp
    rw [hc]
    show decodeCommand [c, 0x00, 0x00, 0x00] = .ok i
    exact decodeCommand_eq_ok.2 ⟨rfl, c, rfl, decodeCode_eq_ok.2 ⟨hp, hc⟩⟩
  | request => exact decodeRequest_eq_ok.2 ⟨hp, hw, rfl⟩
  | response => exact decodePdu_eq_ok.2 ⟨hp, rfl⟩

/-- Settles O2: each port accepts nothing but the bytes of its own well-formed instructions, and CMD nothing
but four bytes with the code of one. -/
theorem decodedBytesAreExact : Obligations.DecodedBytesAreExact := by
  intro p m i h
  cases p with
  | command =>
    obtain ⟨hm, c, hc, hcode⟩ := decodeCommand_eq_ok.1 h
    obtain ⟨hp, he⟩ := decodeCode_eq_ok.1 hcode
    exact ⟨wellFormed_of_port_ne_request (hp ▸ nofun), hp, fun _ => ⟨hm, by rw [hc, he]; rfl⟩,
      fun hne => absurd rfl hne⟩
  | request =>
    obtain ⟨hp, hw, hm⟩ := decodeRequest_eq_ok.1 h
    exact ⟨hw, hp, nofun, fun _ => hm⟩
  | response =>
    obtain ⟨hp, hm⟩ := decodePdu_eq_ok.1 h
    exact ⟨wellFormed_of_port_ne_request (hp ▸ nofun), hp, nofun, fun _ => hm⟩

/-! ### The requests the core builds -/

/-- What `EncodeRequest` builds are the bytes of the function's request instruction (42_pdu_codec.md R150 to
R156). -/
theorem encodeRequest_eq_encode (c : FunctionCode) (addr value : Half) :
    encodeRequest c addr value = encode (requestOf c addr value) := by
  cases c <;> rfl

theorem requestOf_port (c : FunctionCode) (addr value : Half) : (requestOf c addr value).port = .request := by
  cases c <;> rfl

theorem legalCoilWord_coilWord (v : Half) : legalCoilWord (coilWord v) = true := by
  unfold coilWord
  split <;> rfl

/-- The core builds only well-formed requests: quantity 1, and a coil word that is ON or OFF (30_encoding.md
R84, R86). -/
theorem requestOf_wellFormed (c : FunctionCode) (addr value : Half) :
    (requestOf c addr value).wellFormed = true := by
  cases c with
  | readCoils | readHolding | writeRegister => rfl
  | writeCoil => exact legalCoilWord_coilWord value

/-- Settles O15: the request PDU is the encoding of a well-formed instruction, and its frame is the eight
bytes `txbuf` has room for. -/
theorem requestFrameIsEightBytes : Obligations.RequestFrameIsEightBytes := by
  intro a c addr value
  have hlen : (frameEncode a (encodeRequest c addr value)).length = 8 := by simp
  refine ⟨encodeRequest_length c addr value, hlen, Buffer.toList_ofList hlen, ?_⟩
  rw [encodeRequest_eq_encode]
  exact decodeRequest_eq_ok.2 ⟨requestOf_port c addr value, requestOf_wellFormed c addr value, rfl⟩

/-! ### CMD writes -/

/-- Settles O3, by running the decoder on each. -/
theorem writtenOutWordsDecode : Obligations.WrittenOutWordsDecode :=
  ⟨rfl, rfl, rfl, rfl, rfl, rfl, rfl, rfl, rfl⟩

/-- Settles O4: of what a CMD write can do, the six codes are excluded. -/
theorem illegalCodeSetsOnlyIllcmd : Obligations.IllegalCodeSetsOnlyIllcmd := by
  intro v s h1 h3 h5 h6 h40 h41
  show commandWrite v s = .next s.illegalCommand
  rcases commandWrite_cases v s with ⟨c, hc, -⟩ | ⟨hc, -⟩ | ⟨hc, -⟩ | ⟨-, -, -, e⟩
  · cases c <;> contradiction
  · exact absurd hc h40
  · exact absurd hc h41
  · exact e

/-- A CMD write decodes bits [7:0] and nothing else (30_encoding.md R80; 43_transaction.md R183). -/
theorem hostWrite_cmd_of_decodeCode {v : Word} {i : Instr} (h : decodeCode (v.extractLsb' 0 8) = .ok i)
    (s : State) : hostWrite 0x00 v s = exec i s := by
  have hd : decode .command (wordBytes v) = .ok i := h
  show commandWrite v s = exec i s
  simp only [commandWrite, hd]

/-- Settles O5: the six codes decode to the six commands. -/
theorem commandWordRunsItsCode : Obligations.CommandWordRunsItsCode := by
  intro v s
  refine ⟨fun h => ?_, fun h => ?_, fun h => ?_, fun h => ?_, fun h => ?_, fun h => ?_⟩ <;>
    exact hostWrite_cmd_of_decodeCode (by rw [h]; rfl) s

/-! ### Exception codes -/

/-- Every exception code outside 1 to 4 is of kind Unknown (30_encoding.md R97). -/
theorem excKindOf_of_unlisted {c : Byte} (h : c = 0 ∨ 4 < c.toNat) : excKindOf c = .unknown := by
  have ne (d : Byte) (hd : 1 ≤ d.toNat ∧ d.toNat ≤ 4) : c ≠ d := by
    rintro rfl
    rcases h with rfl | h
    · exact absurd hd.1 (by decide)
    · omega
  simp [excKindOf, ne]

/-- Settles O14: the codes 1 to 4 one by one, and every other code is unlisted. -/
theorem exceptionKindOfEveryCode : Obligations.ExceptionKindOfEveryCode := by
  intro c
  refine ⟨fun h => h ▸ rfl, fun h => h ▸ rfl, fun h => h ▸ rfl, fun h => h ▸ rfl,
    excKindOf_of_unlisted, ?_⟩
  by_cases hc : 1 ≤ c.toNat ∧ c.toNat ≤ 4
  · have : c = 1 ∨ c = 2 ∨ c = 3 ∨ c = 4 := by bv_omega
    rcases this with rfl | rfl | rfl | rfl <;> rfl
  · rw [if_neg hc, excKindOf_of_unlisted (by bv_omega)]
    rfl

end Sys2Proof.Machine
end

section
/-! PROOFS. A delivered response (43_transaction.md R204 to R210; 70_reset_and_hazards.md R287): the frame
codec gives its PDU back, the PDU is settled as `DecodeResponse` classifies it, and until the last byte the
frame is incomplete, so that only the deadline could end the attempt. -/

namespace Sys2Proof.Machine

/-! ### The frame codec gives a frame's PDU back -/

/-- The last two bytes of a frame carry its CRC (30_encoding.md R87, R99). -/
theorem frameCrc_append_le16 (m : List Byte) (x : Half) : frameCrc (m ++ le16 x) = x := by
  simp [frameCrc, byteAt, le16]

theorem frameDecode_frameEncode (a : Byte) {p : List Byte} (hp : p ≠ []) :
    frameDecode (frameEncode a p) = .ok ⟨a, p⟩ := by
  have hlen : ¬ (frameEncode a p).length < 4 := by
    have := List.length_pos_iff.2 hp
    rw [frameEncode_length]
    omega
  have hbody : (frameEncode a p).take ((frameEncode a p).length - 2) = a :: p := by
    simp [frameEncode]
  have hcrc : frameCrc (frameEncode a p) = crc16 (a :: p) := frameCrc_append_le16 (a :: p) _
  rw [frameDecode, if_neg hlen, hbody, if_neg (not_not.2 hcrc)]
  rfl

/-! ### A PDU is settled as `DecodeResponse` classifies it -/

section
variable {s : State} {c : FunctionCode}

theorem respond_of_code (hs : s.state = .await) (hc : s.req.fc = c.code) (v : Request → Verdict) :
    s.respond c v = s.settle (v s.req) := by
  simp [State.respond, hs, hc]

theorem respond_of_other_code {d : FunctionCode} (hs : s.state = .await) (hc : s.req.fc = c.code)
    (hd : d ≠ c) (v : Request → Verdict) : s.respond d v = s.settle .unexpectedFunction := by
  have : c.code ≠ d.code := fun h => hd (FunctionCode.code_inj.1 h).symm
  simp [State.respond, hs, hc, this]

/-- A PDU that is an instruction's bytes runs that instruction. -/
theorem runPdu_encode {i : Instr} (hi : i.port = .response) (s : State) : runPdu (encode i) s = exec i s := by
  have hd : decode .response (encode i) = .ok i := decodePdu_eq_ok.2 ⟨hi, rfl⟩
  simp only [runPdu, hd]

/-- A response or exception PDU responds for the function its first byte names. -/
theorem exec_eq_respond {i : Instr} (hi : i.port = .response) :
    ∃ (d : FunctionCode) (v : Request → Verdict), (∀ s, exec i s = .next (s.respond d v)) ∧
      ((encode i).head? = some d.code ∨ (encode i).head? = some (exceptionOf d.code)) := by
  cases i with
  | rspReadCoils => exact ⟨.readCoils, _, fun _ => rfl, .inl rfl⟩
  | rspReadHolding => exact ⟨.readHolding, _, fun _ => rfl, .inl rfl⟩
  | rspWriteCoil => exact ⟨.writeCoil, _, fun _ => rfl, .inl rfl⟩
  | rspWriteRegister => exact ⟨.writeRegister, _, fun _ => rfl, .inl rfl⟩
  | excReadCoils => exact ⟨.readCoils, _, fun _ => rfl, .inr rfl⟩
  | excReadHolding => exact ⟨.readHolding, _, fun _ => rfl, .inr rfl⟩
  | excWriteCoil => exact ⟨.writeCoil, _, fun _ => rfl, .inr rfl⟩
  | excWriteRegister => exact ⟨.writeRegister, _, fun _ => rfl, .inr rfl⟩
  | _ => cases hi

/-- A PDU of another function, or of none, is UnexpectedFunction (42_pdu_codec.md R169). -/
theorem runPdu_of_other_function {first : Byte} {data : List Byte} (hs : s.state = .await)
    (hc : s.req.fc = c.code) (hn : first ≠ c.code) (he : first ≠ exceptionOf c.code) :
    runPdu (first :: data) s = .next (s.settle .unexpectedFunction) := by
  unfold runPdu
  split
  · rename_i i hi
    obtain ⟨hp, hbytes⟩ := decodePdu_eq_ok.1 (show decodePdu (first :: data) = .ok i from hi)
    obtain ⟨d, v, hx, hfirst⟩ := exec_eq_respond hp
    rw [← hbytes] at hfirst
    have hd : d ≠ c := by
      rintro rfl
      exact hfirst.elim (fun h => hn (Option.some.inj h)) (fun h => he (Option.some.inj h))
    rw [hx, respond_of_other_code hs hc hd]
  · rfl

theorem runPdu_of_respond {p : List Byte} {v : Request → Verdict} (hs : s.state = .await)
    (hc : s.req.fc = c.code) (hp : runPdu p s = .next (s.respond c v))
    (hv : decodeResponse p s.req = v s.req) :
    runPdu p s = .next (s.settle (decodeResponse p s.req)) := by
  rw [hp, hv, respond_of_code hs hc]

/-- The exception PDU of the request's function (42_pdu_codec.md R161). -/
theorem runPdu_of_exception (hs : s.state = .await) (hc : s.req.fc = c.code) (x : Byte) :
    runPdu [exceptionOf c.code, x] s = .next (s.settle (decodeResponse [exceptionOf c.code, x] s.req)) := by
  refine runPdu_of_respond (v := fun _ => decException (exceptionOf c.code) x) hs hc ?_ ?_
  · cases c <;> rfl
  · rw [decodeResponse, hc]
    exact if_pos rfl

/-- A normal response PDU of the request's function (42_pdu_codec.md R163 to R166). -/
theorem runPdu_of_normal {data : List Byte} (hs : s.state = .await) (hc : s.req.fc = c.code)
    (hlen : data.length + 4 = normLen c) :
    runPdu (c.code :: data) s = .next (s.settle (decodeResponse (c.code :: data) s.req)) := by
  cases c with
  | readCoils =>
    match data, Nat.add_right_cancel (m := 2) hlen with
    | [bc, d], _ => exact runPdu_of_respond hs hc rfl (by rw [decodeResponse, hc]; rfl)
  | readHolding =>
    match data, Nat.add_right_cancel (m := 3) hlen with
    | [bc, hi, lo], _ => exact runPdu_of_respond hs hc rfl (by rw [decodeResponse, hc]; rfl)
  | writeCoil =>
    match data, Nat.add_right_cancel (m := 4) hlen with
    | [a1, a0, v1, v0], _ => exact runPdu_of_respond hs hc rfl (by rw [decodeResponse, hc]; rfl)
  | writeRegister =>
    match data, Nat.add_right_cancel (m := 4) hlen with
    | [a1, a0, v1, v0], _ => exact runPdu_of_respond hs hc rfl (by rw [decodeResponse, hc]; rfl)

/-- The length R94 expects is that of the frame of the PDU. -/
theorem expectedLen_eq (c : FunctionCode) (first : Byte) :
    expectedLen c.code first = some (responsePduLength c first + 3) := by
  rw [expectedLen_code, responsePduLength]
  split
  · rfl
  · cases c <;> rfl

/-- A PDU of the length its first byte gives is settled as `DecodeResponse` classifies it (42_pdu_codec.md
R160; 43_transaction.md R210). -/
theorem runPdu_eq_settle {first : Byte} {data : List Byte} (hs : s.state = .await)
    (hc : s.req.fc = c.code) (hlen : 1 + data.length = responsePduLength c first) :
    runPdu (first :: data) s = .next (s.settle (decodeResponse (first :: data) s.req)) := by
  unfold responsePduLength at hlen
  by_cases he : first = exceptionOf c.code
  · rw [if_pos he] at hlen
    obtain ⟨x, rfl⟩ := List.length_eq_one_iff.1 (show data.length = 1 by omega)
    exact he ▸ runPdu_of_exception hs hc x
  rw [if_neg he] at hlen
  by_cases hn : first = c.code
  · have : 3 ≤ normLen c := by cases c <;> decide
    exact hn ▸ runPdu_of_normal hs hc (by omega)
  · have hv : decodeResponse (first :: data) s.req = .unexpectedFunction := by
      simp [decodeResponse, byteAt, hc, he, hn]
    rw [hv, runPdu_of_other_function hs hc hn he]

end

/-! ### Receiving a frame byte by byte -/

/-- A response frame of the length R94 expects fits `rxbuf` (30_encoding.md R95). -/
theorem responseFrame_fits (a : Byte) {c : FunctionCode} {first : Byte} {data : List Byte}
    (hlen : 1 + data.length = responsePduLength c first) : (frameEncode a (first :: data)).length ≤ 8 := by
  have := expectedLen_code_bounds (expectedLen_eq c first)
  rw [frameEncode_length, List.length_cons]
  omega

/-- Storing the next byte of a sequence (43_transaction.md R204). -/
theorem Buffer.set_ofList {m : List Byte} (h : m.length < 8) (b : Byte) :
    (Buffer.ofList m).set m.length b = Buffer.ofList (m ++ [b]) := by
  match m, h with
  | [], _ | [_], _ | [_, _], _ | [_, _, _], _ | [_, _, _, _], _ | [_, _, _, _, _], _
  | [_, _, _, _, _, _], _ | [_, _, _, _, _, _, _], _ => rfl
  | _ :: _ :: _ :: _ :: _ :: _ :: _ :: _ :: _, h => simp only [List.length_cons] at h; omega

/-- The bytes of a sequence that fits are the first bytes of its buffer. -/
theorem Buffer.first_ofList {m : List Byte} (h : m.length ≤ 8) :
    (Buffer.ofList m).first m.length = m := by
  match m, h with
  | [], _ | [_], _ | [_, _], _ | [_, _, _], _ | [_, _, _, _], _ | [_, _, _, _, _], _
  | [_, _, _, _, _, _], _ | [_, _, _, _, _, _, _], _ | [_, _, _, _, _, _, _, _], _ => rfl
  | _ :: _ :: _ :: _ :: _ :: _ :: _ :: _ :: _ :: _, h => simp only [List.length_cons] at h; omega

/-- AWAIT of the request `q`, with the bytes `m` received. -/
structure State.Receiving (s : State) (q : Request) (m : List Byte) : Prop where
  await : s.state = .await
  req : s.req = q
  len : s.rxLen.toNat = m.length
  buf : s.rxBuf = Buffer.ofList m

theorem State.Receiving.receive {s : State} {q : Request} {m : List Byte} (h : s.Receiving q m)
    {rx : Option Byte} (hroom : (m ++ rx.toList).length ≤ 8) :
    (s.receive rx).Receiving q (m ++ rx.toList) := by
  cases rx with
  | none => rw [Option.toList_none, List.append_nil]; exact h
  | some b =>
    have hm : m.length < 8 := by simpa using hroom
    refine ⟨h.await, h.req, ?_, ?_⟩
    · show (s.rxLen + 1).toNat = _
      have := h.len
      rw [BitVec.toNat_add, List.length_append]
      simp; omega
    · show s.rxBuf.set s.rxLen.toNat b = _
      rw [h.buf, h.len]
      exact Buffer.set_ofList hm b

theorem receive_timer (rx : Option Byte) (s : State) : (s.receive rx).timer = s.timer := by
  cases rx <;> rfl

/-- `s` ended the transaction by the verdict `v` on the received bytes `m`. -/
structure State.ClassifiedAs (s : State) (m : List Byte) (v : Verdict) : Prop where
  len : s.rxLen.toNat = m.length
  buf : s.rxBuf = Buffer.ofList m
  outcome : s.settle v = s

/-- What a verdict leaves in the sequencer state, RESULT and DATA_OUT depends on nothing else. -/
theorem settle_outcome (v : Verdict) (s u : State) :
    (s.settle v).state = (u.settle v).state ∧ (s.settle v).res = (u.settle v).res ∧
      (s.settle v).dataOut = (u.settle v).dataOut := by
  cases v <;> exact ⟨rfl, rfl, rfl⟩

theorem settle_done (v : Verdict) (s : State) : (s.settle v).state.done = true := by
  cases v <;> rfl

/-- An AWAIT tick is its sequencer phase and its end (43_transaction.md R189), whatever the host does to its
own registers meanwhile. -/
theorem step_of_await {s x : State} (hs : s.state = .await) (hc : (s.inputAt 0).calm = true)
    (hx : awaitTick (s.inputAt 0).rx s = .next x) :
    ∃ c, step s = .next (s.endTick (s.inputAt 0) (x.withHostRegs c)) := by
  obtain ⟨hrst, hio, hd⟩ := (calm_iff _).1 hc
  obtain ⟨c, h1⟩ := hostPhase_of_busy hd (s := s) (by rw [hs]; rfl)
  refine ⟨c, step_of_phases hd hrst h1 ?_⟩
  rw [hio, seqPhase_of_await (s := s.withHostRegs c) hs]
  exact awaitTick_withHostRegs c hx

/-! ### Until the last byte, and at it -/

section
variable {q : Request} {c : FunctionCode} {first : Byte} {data : List Byte} {s : State} {m : List Byte}
  (hc : q.fc = c.code) (hlen : 1 + data.length = responsePduLength c first)
include hc hlen

/-- The response is complete exactly when its whole frame has been received (30_encoding.md R94, R95). -/
theorem State.Receiving.complete_iff (h : s.Receiving q m) {rest : List Byte}
    (hm : m ++ rest = frameEncode q.slave (first :: data)) : s.frameComplete = true ↔ rest = [] := by
  have htotal : m.length + rest.length = data.length + 4 := by
    rw [← List.length_append, hm, frameEncode_length, List.length_cons]
  rw [frameComplete_iff, h.len, h.req, hc, expectedLen_eq, Option.some.injEq]
  by_cases h2 : 2 ≤ m.length
  · have hfirst : s.rxBuf.get 1 = first := by
      rw [h.buf, Buffer.get_ofList m (by decide), ← List.getD_append _ rest _ _ h2, hm]
      rfl
    rw [hfirst, ← hlen, ← List.length_eq_zero_iff]
    omega
  · refine ⟨fun h => absurd h.1 h2, fun hr => ?_⟩
    rw [hr, List.length_nil] at htotal
    omega

/-- A tick before the last byte, the deadline still ahead, stores what arrives and waits on (43_transaction.md
R204 to R206). -/
theorem State.Receiving.step_of_gap (h : s.Receiving q m) {rest : List Byte} (hr : rest ≠ [])
    (hm : m ++ (s.inputAt 0).rx.toList ++ rest = frameEncode q.slave (first :: data))
    (hcalm : (s.inputAt 0).calm = true) (ht : s.timer.toNat + 1 < q.timeout.toNat) :
    ∃ u, step s = .next u ∧ u.Receiving q (m ++ (s.inputAt 0).rx.toList) ∧
      u.timer.toNat = s.timer.toNat + 1 := by
  have hfits := responseFrame_fits q.slave hlen
  rw [← hm, List.length_append] at hfits
  have h' := h.receive (rx := (s.inputAt 0).rx) (by omega)
  have hpart : (s.receive (s.inputAt 0).rx).frameComplete ≠ true :=
    fun hf => hr ((h'.complete_iff hc hlen hm).1 hf)
  have htimer : (s.timer + 1).toNat = s.timer.toNat + 1 := by
    have := q.timeout.isLt
    rw [BitVec.toNat_add]
    exact Nat.mod_eq_of_lt (by simp; omega)
  have hwait : (s.receive (s.inputAt 0).rx).deadlineTick =
      { s.receive (s.inputAt 0).rx with timer := s.timer + 1 } := by
    rcases deadlineTick_cases (s.receive (s.inputAt 0).rx) with ⟨hle, -⟩ | ⟨-, e⟩
    · rw [h'.req, receive_timer, BitVec.le_def] at hle
      omega
    · rw [e, receive_timer]
  obtain ⟨r, hstep⟩ := step_of_await h.await hcalm (if_neg hpart)
  rw [hwait] at hstep
  exact ⟨_, hstep, ⟨h'.await, h'.req, h'.len, h'.buf⟩, htimer⟩

/-- The tick of the last byte evaluates the frame, and settles the transaction by the PDU's verdict
(43_transaction.md R207, R210). -/
theorem State.Receiving.step_of_last (h : s.Receiving q m)
    (hm : m ++ (s.inputAt 0).rx.toList = frameEncode q.slave (first :: data))
    (hcalm : (s.inputAt 0).calm = true) :
    ∃ u, step s = .next u ∧
      u.ClassifiedAs (frameEncode q.slave (first :: data)) (decodeResponse (first :: data) q) := by
  have hfits := responseFrame_fits q.slave hlen
  have h' := h.receive (rx := (s.inputAt 0).rx) (hm ▸ hfits)
  rw [hm] at h'
  have hfull : (s.receive (s.inputAt 0).rx).frameComplete = true :=
    (h'.complete_iff hc hlen (List.append_nil _)).2 rfl
  have heval : evaluate (s.receive (s.inputAt 0).rx) =
      .next ((s.receive (s.inputAt 0).rx).settle (decodeResponse (first :: data) q)) := by
    have hd : frameDecode ((s.receive (s.inputAt 0).rx).rxBuf.first (s.receive (s.inputAt 0).rx).rxLen.toNat) =
        .ok ⟨q.slave, first :: data⟩ := by
      rw [h'.buf, h'.len, Buffer.first_ofList hfits]
      exact frameDecode_frameEncode q.slave (List.cons_ne_nil first data)
    have hrun := runPdu_eq_settle h'.await (by rw [h'.req]; exact hc) hlen
    rw [h'.req] at hrun
    simp only [evaluate, hd, h'.req, if_true, hrun]
  obtain ⟨r, hstep⟩ := step_of_await h.await hcalm ((if_pos hfull).trans heval)
  rw [settle_frame] at hstep
  refine ⟨_, hstep, h'.len, h'.buf, ?_⟩
  cases decodeResponse (first :: data) q <;> rfl

/-- Whatever arrives before the last byte, and in whichever ticks before the deadline, the frame is received
whole and classified: by induction on the ticks before the last byte's. -/
theorem classified_of_delivered (last : Byte) (gaps : List (Option Byte)) : ∀ (s : State) (m : List Byte),
    s.Receiving q m → m ++ (gaps.filterMap id ++ [last]) = frameEncode q.slave (first :: data) →
    s.timer.toNat + gaps.length < q.timeout.toNat →
    (∀ j, j < gaps.length + 1 → (s.inputAt j).calm = true ∧
      some (s.inputAt j).rx = (gaps ++ [some last])[j]?) →
    ∃ u, Host.Core.run Sys2Proof.core (gaps.length + 1) s = .next u ∧
      u.ClassifiedAs (frameEncode q.slave (first :: data)) (decodeResponse (first :: data) q) := by
  induction gaps with
  | nil =>
    intro s m h hm _ hin
    obtain ⟨hcalm, hrx⟩ := hin 0 Nat.one_pos
    have hrx : (s.inputAt 0).rx = some last := Option.some.inj hrx
    obtain ⟨u, hstep, hu⟩ := h.step_of_last hc hlen (by rw [hrx]; exact hm) hcalm
    exact ⟨u, run_succ_of_step hstep 0, hu⟩
  | cons gap gaps ih =>
    intro s m h hm ht hin
    obtain ⟨hcalm, hrx⟩ := hin 0 (Nat.succ_pos _)
    have hrx : (s.inputAt 0).rx = gap := Option.some.inj hrx
    have hm' : m ++ (s.inputAt 0).rx.toList ++ (gaps.filterMap id ++ [last]) =
        frameEncode q.slave (first :: data) := by
      rw [← hm, hrx]
      cases gap <;> simp
    rw [List.length_cons] at ht
    obtain ⟨u, hstep, hu, htimer⟩ := h.step_of_gap hc hlen (by simp) hm' hcalm (by omega)
    have hin' (j : Nat) (hj : j < gaps.length + 1) := hin (j + 1) (Nat.succ_lt_succ hj)
    simp only [← inputAt_succ hstep] at hin'
    obtain ⟨w, hrun, hw⟩ := ih u _ hu hm' (by omega) hin'
    exact ⟨w, (run_succ_of_step hstep _).trans hrun, hw⟩

end

/-- Settles O60: AWAIT with nothing received yet, and the whole frame to come. -/
theorem deliveredResponseIsClassified : Obligations.DeliveredResponseIsClassified := by
  intro c first data gaps last s hs hc hrx hbuf hlen hframe ht hin
  have hstart : s.Receiving s.req [] := ⟨hs, rfl, by rw [hrx]; rfl, hbuf⟩
  obtain ⟨u, hrun, hu⟩ := classified_of_delivered hc hlen last gaps s [] hstart hframe ht hin
  have hsize : (frameEncode s.req.slave (first :: data)).length = data.length + 4 := by
    rw [frameEncode_length, List.length_cons]
  obtain ⟨hstate, hres, hdata⟩ := settle_outcome (decodeResponse (first :: data) s.req) u s
  rw [hu.outcome] at hstate hres hdata
  refine ⟨u, hrun, hu.len.trans hsize, ?_, hstate, hres, hdata, hstate ▸ settle_done _ _⟩
  rw [hu.buf, ← hsize]
  exact Buffer.first_ofList (responseFrame_fits s.req.slave hlen)

end Sys2Proof.Machine
end

section
/-! PROOFS. The CRC as a function (40_crc.md R110 to R112, R117): a byte step is linear and loses nothing, so
that two sequences that differ in one bit have different CRCs. -/

namespace Sys2Proof.Machine

/-! ### Linearity -/

/-- A round is a shift, and the polynomial where the bit shifted out is 1 (40_crc.md R111). -/
theorem crcBit_eq (c : Half) : crcBit c = (c >>> 1) ^^^ (if c.getLsbD 0 then crcPolynomial else 0) := by
  unfold crcBit
  split
  · rfl
  · exact BitVec.xor_zero.symm

theorem crcBit_xor (c d : Half) : crcBit (c ^^^ d) = crcBit c ^^^ crcBit d := by
  have hpoly (x y : Bool) : (if (x ^^ y) = true then crcPolynomial else 0) =
      (if x = true then crcPolynomial else 0) ^^^ (if y = true then crcPolynomial else 0) := by
    cases x <;> cases y <;> rfl
  rw [crcBit_eq, crcBit_eq, crcBit_eq, BitVec.ushiftRight_xor_distrib, BitVec.getLsbD_xor, hpoly]
  ac_rfl

theorem crcBits_xor (n : Nat) (c d : Half) : crcBits n (c ^^^ d) = crcBits n c ^^^ crcBits n d := by
  induction n generalizing c d with
  | zero => rfl
  | succ n ih => simp only [crcBits, crcBit_xor, ih]

/-- Settles O8: a byte step is rounds after an exclusive or, and both are linear. -/
theorem crcStepIsLinear : Obligations.CrcStepIsLinear := by
  intro c d a b
  unfold crcStep
  rw [← crcBits_xor, BitVec.setWidth_xor]
  congr 1
  ac_rfl

/-! ### No two registers or bytes step to the same register -/

/-- Only the zero register rounds to zero: the polynomial has its top bit set, a shifted register has not. -/
theorem eq_zero_of_crcBit_eq_zero {c : Half} (h : crcBit c = 0) : c = 0 := by
  unfold crcBit at h
  split at h
  · have hpoly : c >>> 1 = 0xA001 := BitVec.xor_eq_zero_iff.1 h
    bv_omega
  · rename_i hlow
    have heven : c.toNat % 2 = 0 := by simpa [BitVec.getLsbD, Nat.testBit_zero] using hlow
    bv_omega

theorem crcBit_injective : Function.Injective crcBit := fun c d h =>
  BitVec.xor_eq_zero_iff.1 (eq_zero_of_crcBit_eq_zero (by rw [crcBit_xor, h]; exact BitVec.xor_self))

theorem crcBits_injective (n : Nat) : Function.Injective (crcBits n) := by
  induction n with
  | zero => exact fun _ _ h => h
  | succ n ih => exact ih.comp crcBit_injective

theorem crcStep_left_injective (b : Byte) : Function.Injective (crcStep · b) := fun _ _ h =>
  (BitVec.xor_left_inj _).1 (crcBits_injective 8 h)

theorem crcStep_right_injective (c : Half) : Function.Injective (crcStep c) := fun a b h => by
  have hw : a.setWidth 16 = b.setWidth 16 := (BitVec.xor_right_inj _).1 (crcBits_injective 8 h)
  bv_omega

/-- A difference in the register survives every byte that follows. -/
theorem crcFrom_left_injective (m : List Byte) : Function.Injective (crcFrom · m) := by
  induction m with
  | nil => exact fun _ _ h => h
  | cons b m ih => exact ih.comp (crcStep_left_injective b)

/-- The two bytes of the carried CRC determine it (20_memory.md R71). -/
theorem le16_injective : Function.Injective le16 := fun x y h => by
  obtain ⟨hlo, htail⟩ := List.cons.inj h
  have hhi := List.head_eq_of_cons_eq htail
  rw [← half_split x, ← half_split y, hlo, hhi]

/-! ### Flipping a bit -/

theorem flipBit_cons_of_lt {i : Nat} (h : i < 8) (b : Byte) (m : List Byte) :
    flipBit i (b :: m) = (b ^^^ (1#8 <<< i)) :: m := if_pos h

theorem flipBit_cons_of_ge {i : Nat} (h : 8 ≤ i) (b : Byte) (m : List Byte) :
    flipBit i (b :: m) = b :: flipBit (i - 8) m := if_neg (Nat.not_lt.2 h)

@[simp] theorem flipBit_length (i : Nat) (m : List Byte) : (flipBit i m).length = m.length := by
  induction m generalizing i with
  | nil => rfl
  | cons b m ih =>
    rcases Nat.lt_or_ge i 8 with h | h
    · rw [flipBit_cons_of_lt h]; rfl
    · rw [flipBit_cons_of_ge h, List.length_cons, ih, List.length_cons]

theorem flipBit_append_of_lt {i : Nat} {m : List Byte} (h : i < 8 * m.length) (n : List Byte) :
    flipBit i (m ++ n) = flipBit i m ++ n := by
  induction m generalizing i with
  | nil => cases h
  | cons b m ih =>
    rcases Nat.lt_or_ge i 8 with hi | hi
    · rw [List.cons_append, flipBit_cons_of_lt hi, flipBit_cons_of_lt hi, List.cons_append]
    · rw [List.length_cons] at h
      rw [List.cons_append, flipBit_cons_of_ge hi, flipBit_cons_of_ge hi, ih (by omega), List.cons_append]

theorem flipBit_append_of_ge {i : Nat} {m : List Byte} (h : 8 * m.length ≤ i) (n : List Byte) :
    flipBit i (m ++ n) = m ++ flipBit (i - 8 * m.length) n := by
  induction m generalizing i with
  | nil => rfl
  | cons b m ih =>
    rw [List.length_cons] at h ⊢
    rw [List.cons_append, flipBit_cons_of_ge (by omega), ih (by omega), List.cons_append,
      Nat.sub_sub, Nat.mul_succ, Nat.add_comm 8]

theorem xor_bit_ne {i : Nat} (h : i < 8) (b : Byte) : b ^^^ (1#8 <<< i) ≠ b := by
  have hbit : 1#8 <<< i ≠ 0 := by interval_cases i <;> decide
  exact fun e => hbit ((BitVec.xor_right_inj _).1 (e.trans BitVec.xor_zero.symm))

/-- A flipped bit changes the CRC: the register differs after its byte and from then on. -/
theorem crcFrom_flipBit_ne (c : Half) {i : Nat} {m : List Byte} (h : i < 8 * m.length) :
    crcFrom c (flipBit i m) ≠ crcFrom c m := by
  induction m generalizing c i with
  | nil => cases h
  | cons b m ih =>
    rcases Nat.lt_or_ge i 8 with hi | hi
    · rw [flipBit_cons_of_lt hi]
      exact fun e => xor_bit_ne hi b (crcStep_right_injective c (crcFrom_left_injective m e))
    · rw [List.length_cons] at h
      rw [flipBit_cons_of_ge hi]
      exact ih (crcStep c b) (by omega)

theorem flipBit_ne {i : Nat} {m : List Byte} (h : i < 8 * m.length) : flipBit i m ≠ m := fun e =>
  crcFrom_flipBit_ne crcInitValue h (congrArg _ e)

/-- Settles O10: the flipped bit is in the message, whose CRC then changes, or in the CRC that is carried. -/
theorem singleBitFlipBreaksChecksum : Obligations.SingleBitFlipBreaksChecksum := by
  intro m i hi
  show (flipBit i (m ++ le16 (crc16 m))).drop m.length ≠
    le16 (crc16 ((flipBit i (m ++ le16 (crc16 m))).take m.length))
  rcases Nat.lt_or_ge i (8 * m.length) with h | h
  · rw [flipBit_append_of_lt h, List.drop_left' (flipBit_length i m), List.take_left' (flipBit_length i m)]
    exact fun e => crcFrom_flipBit_ne crcInitValue h (le16_injective e).symm
  · rw [flipBit_append_of_ge h, List.drop_left, List.take_left]
    exact flipBit_ne (by rw [le16_length]; omega)

end Sys2Proof.Machine
end

section
/-! PROOFS. The standalone CRC unit (40_crc.md R114 to R116, R118): its two commands, the CRC of the bytes fed
to it, and that it and the rest of the core do not look at each other. -/

namespace Sys2Proof.Machine

/-! ### The two commands -/

/-- Settles O6: the command's arm of `exec`, and CMD runs that arm. -/
theorem crcInitLoadsAllOnes : Obligations.CrcInitLoadsAllOnes := fun _ s =>
  ⟨rfl, fun h => ⟨_, hostWrite_cmd_of_decodeCode (i := .crcInit) (by rw [h]; rfl) s, rfl, rfl⟩⟩

/-- Settles O7: the command's arm of `exec`, and CMD runs that arm. -/
theorem crcFeedFoldsCrcIn : Obligations.CrcFeedFoldsCrcIn := fun _ s =>
  ⟨rfl, fun h => ⟨_, hostWrite_cmd_of_decodeCode (i := .crcFeed) (by rw [h]; rfl) s, rfl, rfl⟩⟩

/-! ### The CRC of the bytes fed -/

theorem seqPhase_crcIn {rx : Option Byte} {r e : Bool} {idle0 : Word} {s u : State}
    (h : seqPhase rx r e idle0 s = .next u) : u.crcIn = s.crcIn :=
  (congrArg State.crcIn (seqPhase_frame h) :)

/-- CRC_IN after a tick that is no reset: the byte written to it, or what it held (10_state.md R40). -/
theorem step_crcIn {s u : State} (h : step s = .next u) (hr : (s.inputAt 0).rst = false) :
    u.crcIn = (((s.inputAt 0).written 0x40).map (·.extractLsb' 0 8)).getD s.crcIn := by
  obtain ⟨hd, s1, s2, h1, h2, rfl⟩ := step_phases h hr
  obtain ⟨-, -, -, -, -, -, hcrcIn⟩ := hostPhase_config hd h1
  rw [State.endTick_crcIn, seqPhase_crcIn h2, hcrcIn]

theorem fedBytes_cons (cin : Byte) (t : TickInput) (ts : List TickInput) :
    fedBytes cin (t :: ts) = (if t.command = some 0x41 then [cin] else []) ++
      fedBytes (((t.written 0x40).map (·.extractLsb' 0 8)).getD cin) ts := by
  rw [fedBytes]
  cases t.written 0x40 <;> rfl

theorem step_inputs {s u : State} (h : step s = .next u) : u.inputs = s.inputs.tail := by
  obtain ⟨-, ⟨-, rfl⟩ | ⟨-, _, _, -, -, rfl⟩⟩ := step_cases h <;> rfl

/-- A tick has one host access (20_memory.md R65): one that writes CMD writes no other register. -/
theorem written_of_command {t : TickInput} {c off : Byte} (h : t.command = some c) (ho : off ≠ 0x00) :
    t.written off = none := by
  obtain ⟨v, hv, -⟩ := command_eq_some.1 h
  unfold TickInput.written at hv ⊢
  split at hv
  · split at hv
    · split at hv
      · rename_i h0
        simp only [h0, ho.symm, if_false]
      · cases hv
    · cases hv
  · cases hv

/-- Ticks without CRC_INIT fold the bytes they feed into the register: by induction over the ticks. -/
theorem crc_of_fed (ts : List TickInput) : ∀ (s : State) (rest : List TickInput), s.inputs = ts ++ rest →
    (∀ t ∈ ts, t.rst = false ∧ t.hostDefined = true ∧ t.command ≠ some 0x40) →
    ∃ u, Host.Core.run Sys2Proof.core ts.length s = .next u ∧ u.crc = crcFrom s.crc (fedBytes s.crcIn ts) := by
  induction ts with
  | nil => exact fun s _ _ _ => ⟨s, rfl, rfl⟩
  | cons t ts ih =>
    intro s rest hi hts
    obtain ⟨⟨hr, hd, hc⟩, hrest⟩ := List.forall_mem_cons.1 hts
    obtain rfl := inputAt_zero_of_cons hi
    obtain ⟨s', hstep⟩ := step_of_defined hd
    obtain ⟨u, hrun, hu⟩ := ih s' rest (by rw [step_inputs hstep, hi]; rfl) hrest
    refine ⟨u, (run_succ_of_step hstep _).trans hrun, ?_⟩
    rw [hu, step_crcIn hstep hr, step_crc hstep hr, if_neg hc, fedBytes_cons, crcFrom_append]
    split <;> rfl

/-- Settles O9: CRC_INIT loads Crc16's initial value and leaves CRC_IN, and the other ticks fold. -/
theorem crcUnitComputesCrc16 : Obligations.CrcUnitComputesCrc16 := by
  intro s t0 ts rest hi hr hd hc hts
  obtain rfl := inputAt_zero_of_cons hi
  obtain ⟨s', hstep⟩ := step_of_defined hd
  have hcrc : s'.crc = crcInitValue := (step_crc hstep hr).trans (if_pos hc)
  have hcrcIn : s'.crcIn = s.crcIn := by rw [step_crcIn hstep hr, written_of_command hc (by decide)]; rfl
  obtain ⟨u, hrun, hu⟩ := crc_of_fed ts s' rest (by rw [step_inputs hstep, hi]; rfl) hts
  refine ⟨u, ?_, by rw [hu, hcrc, hcrcIn]; rfl⟩
  rw [Nat.add_comm]
  exact (run_succ_of_step hstep _).trans hrun

/-! ### Independence -/

/-- `s` with the CRC unit of `c`. -/
def State.withCrcUnit (s c : State) : State := { s with crc := c.crc, crcIn := c.crcIn }

section
variable {s u : State} (c : State)

theorem transactionCommand_withCrcUnit (f : FunctionCode) :
    (s.withCrcUnit c).transactionCommand f = (s.transactionCommand f).withCrcUnit c := by
  unfold State.transactionCommand State.acceptTransaction
  rw [apply_ite (State.withCrcUnit · c), apply_ite (State.withCrcUnit · c)]
  rfl

theorem exec_command_withCrcUnit {i : Instr} (hi : i.port = .command) (h : exec i s = .next u) :
    ∃ w, exec i (s.withCrcUnit c) = .next w ∧ w = u.withCrcUnit w := by
  rcases exec_command hi s with ⟨f, rfl, e⟩ | ⟨rfl, e⟩ | ⟨rfl, e⟩ <;> rw [e] at h <;> cases h
  · have hx : exec (commandOf f) (s.withCrcUnit c) = .next ((s.withCrcUnit c).transactionCommand f) := by
      cases f <;> rfl
    exact ⟨_, hx, by rw [transactionCommand_withCrcUnit]; rfl⟩
  · exact ⟨_, rfl, rfl⟩
  · exact ⟨_, rfl, rfl⟩

theorem commandWrite_withCrcUnit {v : Word} (h : commandWrite v s = .next u) :
    ∃ w, commandWrite v (s.withCrcUnit c) = .next w ∧ w = u.withCrcUnit w := by
  unfold commandWrite at h ⊢
  split at h
  · rename_i i hi
    exact exec_command_withCrcUnit c (port_of_decodeCode hi) h
  · cases h
    exact ⟨_, rfl, rfl⟩

theorem hostWrite_withCrcUnit {off : Byte} {v : Word} (h : hostWrite off v s = .next u) :
    ∃ w, hostWrite off v (s.withCrcUnit c) = .next w ∧ w = u.withCrcUnit w := by
  unfold hostWrite at h ⊢
  by_cases h0 : off = 0x00
  · rw [if_pos h0] at h ⊢
    exact commandWrite_withCrcUnit c h
  · rw [if_neg h0] at h ⊢
    repeat' split at h
    all_goals
      cases h
      simp only [*, if_false, if_true]
      exact ⟨_, rfl, rfl⟩

theorem hostPhase_withCrcUnit {accesses : List HostAccess} (h : hostPhase accesses s = .next u) :
    ∃ w, hostPhase accesses (s.withCrcUnit c) = .next w ∧ w = u.withCrcUnit w := by
  rcases accesses with _ | ⟨⟨bits, off, op⟩, l⟩
  · cases h; exact ⟨_, rfl, rfl⟩
  · cases op with
    | read => cases h; exact ⟨_, rfl, rfl⟩
    | write v => exact hostWrite_withCrcUnit c h

/-- Whatever the CRC unit holds, a tick does the same to everything else, but for the word a HostRead
returns (40_crc.md R116). -/
theorem step_withCrcUnit (h : step s = .next u) : ∃ w, step (s.withCrcUnit c) = .next w ∧
    u = { w with crc := u.crc, crcIn := u.crcIn, out := { w.out with readData := u.out.readData } } := by
  obtain ⟨hd, ⟨hr, rfl⟩ | ⟨hr, s1, s2, h1, h2, rfl⟩⟩ := step_cases h
  · exact ⟨_, step_of_reset (s := s.withCrcUnit c) hd hr, rfl⟩
  · obtain ⟨w1, hw1, e⟩ := hostPhase_withCrcUnit c h1
    have e1 : w1 = s1.withHostRegs w1 := by rw [e]; rfl
    have hw2 := seqPhase_withHostRegs w1 h2
    rw [← e1] at hw2
    refine ⟨_, step_of_phases (s := s.withCrcUnit c) hd hr hw1 hw2, ?_⟩
    rw [e, seqPhase_frame h2]
    rfl

end

/-- Settles O52: the tick from another CRC unit, the sequencer phase's frame, and the two commands. -/
theorem crcUnitIsIndependent : Obligations.CrcUnitIsIndependent :=
  ⟨fun s _ c b h => step_withCrcUnit { s with crc := c, crcIn := b } h,
    fun _ _ _ _ _ _ h => ⟨seqPhase_crc h, seqPhase_crcIn h⟩,
    fun s => ⟨⟨_, (crcInitLoadsAllOnes 0 s).1⟩, ⟨_, (crcFeedFoldsCrcIn 0 s).1⟩⟩⟩

end Sys2Proof.Machine
end

section
/-! PROOFS. The frame codec (41_frame_codec.md R130 to R139): what decoding answers for any body and any
carried CRC, so that a frame gives its PDU back and one flipped bit is a mismatch; and the request frames. -/

namespace Sys2Proof.Machine

/-! ### Decoding a body and a carried CRC -/

theorem frameDecode_of_length_lt {f : List Byte} (h : f.length < 4) : frameDecode f = .error .tooShort :=
  if_pos h

/-- The trailing CRC decides, once address and PDU have two bytes (41_frame_codec.md R132, R135, R136). -/
theorem frameDecode_append_le16 {m : List Byte} (hm : 2 ≤ m.length) (x : Half) :
    frameDecode (m ++ le16 x) =
      if x = crc16 m then .ok ⟨byteAt m 0, m.drop 1⟩ else .error .checksumMismatch := by
  have hlen : ¬ (m ++ le16 x).length < 4 := by
    rw [List.length_append, le16_length]
    omega
  have hbody : (m ++ le16 x).take ((m ++ le16 x).length - 2) = m := by simp
  have haddr : byteAt (m ++ le16 x) 0 = byteAt m 0 := List.getD_append _ _ _ _ (by omega)
  rw [frameDecode, if_neg hlen, hbody, frameCrc_append_le16, haddr]
  exact ite_not ..

theorem eq_le16_of_length_eq_two {t : List Byte} (h : t.length = 2) : ∃ x, t = le16 x := by
  obtain ⟨lo, hi, rfl⟩ := List.length_eq_two.1 h
  exact ⟨half hi lo, (le16_half hi lo).symm⟩

/-- Two last bytes other than the CRC of the bytes before them are a mismatch (41_frame_codec.md R135). -/
theorem frameDecode_of_drop_ne {n : Nat} {f : List Byte} (hn : 2 ≤ n) (hf : f.length = n + 2)
    (h : f.drop n ≠ le16 (crc16 (f.take n))) : frameDecode f = .error .checksumMismatch := by
  obtain ⟨x, hx⟩ := eq_le16_of_length_eq_two (t := f.drop n) (by rw [List.length_drop]; omega)
  have hsplit : f = f.take n ++ le16 x := by rw [← hx, List.take_append_drop]
  have hne : x ≠ crc16 (f.take n) := fun e => h (hx.trans (congrArg le16 e))
  rw [hsplit, frameDecode_append_le16 (by rw [List.length_take]; omega), if_neg hne]

/-- Settles O12: the last two bytes are `le16` of the CRC they are read as, and that CRC decides. -/
theorem frameDecodeChecksTrailingCrc : Obligations.FrameDecodeChecksTrailingCrc := by
  refine ⟨fun _ => frameDecode_of_length_lt, fun a p lo hi hp => ?_⟩
  have hdec := frameDecode_append_le16 (m := a :: p) (Nat.succ_le_succ hp) (half hi lo)
  rw [le16_half] at hdec
  exact ⟨fun h => hdec.trans (if_pos h), fun h => hdec.trans (if_neg h)⟩

/-- Settles O11: the round trip is `frameDecode_frameEncode`, and a flipped bit leaves the length and makes
the trailing CRC wrong wherever it is (40_crc.md R117). -/
theorem frameRoundTripAndBitFlip : Obligations.FrameRoundTripAndBitFlip := by
  refine fun a p => ⟨frameDecode_frameEncode a, fun hp i hi => ?_, ?_⟩
  · have hlen : (flipBit i (frameEncode a p)).length = (a :: p).length + 2 := by
      rw [flipBit_length, frameEncode_length, List.length_cons]
    have hbody : 2 ≤ (a :: p).length := Nat.succ_le_succ (List.length_pos_iff.2 hp)
    exact frameDecode_of_drop_ne hbody hlen (singleBitFlipBreaksChecksum (a :: p) i hi)
  · rintro rfl
    exact frameDecode_of_length_lt (by rw [frameEncode_length]; decide)

/-! ### The request frames -/

/-- Settles O21: each request PDU's arm of `exec` is `loadRequest` of its bytes, which sets only `txbuf`. -/
theorem requestPdusFillTxbuf : Obligations.RequestPdusFillTxbuf := fun _ _ _ => ⟨rfl, rfl, rfl, rfl⟩

end Sys2Proof.Machine
end

section
/-! PROOFS. The PDU codec (42_pdu_codec.md R150 to R171): the wire value of a request and its echo, and how
each response PDU settles the transaction. -/

namespace Sys2Proof.Machine

/-! ### Parity and the coil word -/

/-- Bit 0 of a value is its parity (42_pdu_codec.md R153). -/
theorem getLsbD_zero_eq_odd {w : Nat} (v : BitVec w) : v.getLsbD 0 = decide (v.toNat % 2 = 1) :=
  Nat.testBit_zero _

theorem coilWord_eq (v : Half) : coilWord v = if v.toNat % 2 = 1 then 0xFF00 else 0x0000 := by
  simp only [coilWord, getLsbD_zero_eq_odd, decide_eq_true_eq]

/-- Settles O13: bit 0, which the coil word looks at, is the parity. -/
theorem coilWordFollowsParity : Obligations.CoilWordFollowsParity := fun v =>
  ⟨fun h => (coilWord_eq v).trans (if_pos h), fun h => (coilWord_eq v).trans (if_neg (by omega))⟩

/-! ### Requests and their echo -/

/-- Every request is its function code, its address and its wire value (42_pdu_codec.md R150 to R156). -/
theorem encodeRequest_eq_fields (c : FunctionCode) (addr value : Half) :
    encodeRequest c addr value = c.code :: (be16 addr ++ be16 (wireValue c value)) := by
  cases c <;> rfl

/-- The two 16-bit fields after a function code are read back as they were written (30_encoding.md R99). -/
theorem half_byteAt_be16 (fc : Byte) (a v : Half) :
    half (byteAt (fc :: (be16 a ++ be16 v)) 1) (byteAt (fc :: (be16 a ++ be16 v)) 2) = a ∧
      half (byteAt (fc :: (be16 a ++ be16 v)) 3) (byteAt (fc :: (be16 a ++ be16 v)) 4) = v :=
  ⟨half_split a, half_split v⟩

/-- A write response is compared with the address and the wire value of its request (42_pdu_codec.md R165,
R166). -/
theorem decodeResponse_write {c : FunctionCode} {r : Request} (hw : c = .writeCoil ∨ c = .writeRegister)
    (hc : r.fc = c.code) (a v : Half) :
    decodeResponse (c.code :: (be16 a ++ be16 v)) r =
      if a = r.addr ∧ v = wireValue c r.value then .ack else .echoMismatch := by
  obtain ⟨ha, hv⟩ := half_byteAt_be16 c.code a v
  rw [decodeResponse, hc]
  rcases hw with rfl | rfl
  · exact congrArg₂ (decWriteCoil · · r) ha hv
  · exact congrArg₂ (decWriteRegister · · r) ha hv

/-- Settles O16: a write request is its own expected echo, and its fields are the bytes `be16` splits. -/
theorem echoedWriteIsAck : Obligations.EchoedWriteIsAck := by
  intro c r hw hc
  refine ⟨_, _, _, _, encodeRequest_eq_fields c r.addr r.value, half_split _, half_split _, ?_, ?_, ?_⟩
  · rintro rfl
    exact half_split _
  · rintro rfl
    exact half_split _
  · rw [encodeRequest_eq_fields, decodeResponse_write hw hc, if_pos ⟨rfl, rfl⟩]

/-! ### Response PDUs of the request's function -/

/-- The data word of a coil response is the parity of its data byte (10_state.md R35; 42_pdu_codec.md R164). -/
theorem bitWord_eq_parity (d : Byte) :
    (BitVec.ofBool (d.getLsbD 0)).setWidth 16 = BitVec.ofNat 16 (d.toNat % 2) := by
  rw [getLsbD_zero_eq_odd]
  rcases Nat.mod_two_eq_zero_or_one d.toNat with h | h <;> rw [h] <;> rfl

/-- Settles O22: the byte count decides between `Bit` and the mismatch. -/
theorem readCoilsResponseGivesBit : Obligations.ReadCoilsResponseGivesBit := by
  intro bc d s hs hc
  have hx : exec (.rspReadCoils bc d) s = .next (s.settle (decReadCoils bc d)) :=
    congrArg Host.Outcome.next (respond_of_code (c := .readCoils) hs hc _)
  constructor
  · intro h
    rw [hx, decReadCoils, if_pos h, ← bitWord_eq_parity]
    rfl
  · intro h
    rw [hx, decReadCoils, if_neg h]
    rfl

/-- Settles O23: the byte count decides between `Value` and the mismatch. -/
theorem readHoldingResponseGivesValue : Obligations.ReadHoldingResponseGivesValue := by
  intro bc v s hs hc
  have hx : exec (.rspReadHolding bc v) s = .next (s.settle (decReadHolding bc v)) :=
    congrArg Host.Outcome.next (respond_of_code (c := .readHolding) hs hc _)
  constructor
  · intro h
    rw [hx, decReadHolding, if_pos h]
    rfl
  · intro h
    rw [hx, decReadHolding, if_neg h]
    rfl

/-- Settles O24: the echo is compared with the address and the coil word. -/
theorem writeCoilResponseChecksEcho : Obligations.WriteCoilResponseChecksEcho := by
  intro a cw s hs hc
  have hx : exec (.rspWriteCoil a cw) s =
      .next (s.settle (if a = s.req.addr ∧ cw = coilWord s.req.value then .ack else .echoMismatch)) :=
    congrArg Host.Outcome.next (respond_of_code (c := .writeCoil) hs hc _)
  constructor
  · intro ha hv
    rw [hx, if_pos ⟨ha, hv⟩]
    rfl
  · intro h
    rw [hx, if_neg (not_and_or.2 h)]
    rfl

/-- Settles O25: the echo is compared with the address and the value. -/
theorem writeRegisterResponseChecksEcho : Obligations.WriteRegisterResponseChecksEcho := by
  intro a v s hs hc
  have hx : exec (.rspWriteRegister a v) s =
      .next (s.settle (if a = s.req.addr ∧ v = s.req.value then .ack else .echoMismatch)) :=
    congrArg Host.Outcome.next (respond_of_code (c := .writeRegister) hs hc _)
  constructor
  · intro ha hv
    rw [hx, if_pos ⟨ha, hv⟩]
    rfl
  · intro h
    rw [hx, if_neg (not_and_or.2 h)]
    rfl

/-! ### Response PDUs of another function -/

/-- Settles O27: the first byte names the function the PDU responds for, so that function is not the
request's. -/
theorem otherFunctionIsUnexpected : Obligations.OtherFunctionIsUnexpected := by
  intro i fc rest s hp hs hbytes hn he _
  obtain ⟨d, v, hx, hfirst⟩ := exec_eq_respond hp
  have hd : s.req.fc ≠ d.code := by
    intro e
    rw [hbytes, ← e] at hfirst
    exact hfirst.elim (fun h => hn (Option.some.inj h)) (fun h => he (Option.some.inj h))
  rw [hx, State.respond, if_pos hs, if_neg hd]
  rfl

end Sys2Proof.Machine
end

section
/-! PROOFS. The transaction commands (43_transaction.md R183 to R188), the response PDUs as instructions, and the
evaluation of a complete response (R210): a decoded frame's PDU has the length its first byte gives, so that
running it settles the transaction as `DecodeResponse` says. -/

namespace Sys2Proof.Machine

/-! ### The transaction commands -/

/-- The four EXEC_* rows are the transaction branch of `CommandWrite` (43_transaction.md R183). -/
theorem exec_commandOf (c : FunctionCode) (s : State) :
    exec (commandOf c) s = .next (s.transactionCommand c) := by
  cases c <;> rfl

/-- Outside BUSY a transaction command is accepted (43_transaction.md R183). -/
theorem exec_commandOf_of_not_busy {s : State} (h : s.state.busy = false) (c : FunctionCode) :
    exec (commandOf c) s = .next (s.acceptTransaction c) := by
  rw [exec_commandOf, State.transactionCommand, if_neg (by simp [h])]

theorem slaveInRange_iff (a : Byte) : slaveInRange a = true ↔ 1 ≤ a.toNat ∧ a.toNat ≤ 247 :=
  decide_eq_true_iff

theorem exec_commandOf_of_legal_slave {s : State} (hb : s.state.busy = false) (h1 : 1 ≤ s.slave.toNat)
    (h2 : s.slave.toNat ≤ 247) (c : FunctionCode) :
    exec (commandOf c) s = .next ((s.clearTransaction.latch c).buildRequest c) := by
  rw [exec_commandOf_of_not_busy hb, State.acceptTransaction, if_pos ((slaveInRange_iff _).2 ⟨h1, h2⟩)]

/-- The request PDU of a function, run as an instruction (log entry 5), loads what `EncodeRequest` builds. -/
theorem exec_requestOf (c : FunctionCode) (addr value : Half) (s : State) :
    exec (requestOf c addr value) s = .next (s.loadRequest (encodeRequest c addr value)) := by
  cases c <;> rfl

/-- Settles O17: the accepted command clears, latches and builds, and these updates are the fields named. -/
theorem acceptedCommandLatchesAndBuilds : Obligations.AcceptedCommandLatchesAndBuilds :=
  fun c _ hb h1 h2 => exec_commandOf_of_legal_slave hb h1 h2 c

/-- Settles O18: the accepted command clears, latches and is refused for its slave. -/
theorem badSlaveFailsAtOnce : Obligations.BadSlaveFailsAtOnce := by
  intro c s hb h
  have hout : ¬ slaveInRange s.slave = true := fun hin => by
    have := (slaveInRange_iff _).1 hin
    omega
  rw [exec_commandOf_of_not_busy hb, State.acceptTransaction, if_neg hout]
  rfl

/-- A sticky flag that is 1 stays 1 in every tick but a reset and one in which the host writes a 1 to its bit of
STATUS (10_state.md R26; 60_exceptions.md R243). -/
theorem step_sticky {s u : State} (h : step s = .next u) (hr : (s.inputAt 0).rst = false) :
    (s.illCmd = true → (∀ v, (s.inputAt 0).written 0x04 = some v → v.getLsbD 8 = false) → u.illCmd = true) ∧
    (s.cmdOvr = true → (∀ v, (s.inputAt 0).written 0x04 = some v → v.getLsbD 9 = false) → u.cmdOvr = true) := by
  obtain ⟨hd, s1, s2, h1, h2, rfl⟩ := step_phases h hr
  have hsticky := hostPhase_sticky hd h1
  rw [seqPhase_frame h2]
  exact hsticky

/-- Settles O19: while BUSY the command is an overrun, and the flags are sticky. -/
theorem busyCommandOnlySetsCmdovr : Obligations.BusyCommandOnlySetsCmdovr := by
  refine ⟨fun c s hb => ?_, fun s u h hs hr => (step_sticky h hr).2 hs,
    fun s u h hs hr => (step_sticky h hr).1 hs⟩
  rw [exec_commandOf, transactionCommand_of_busy hb]
  rfl

/-- Settles O20: both leave `loadRequest` of the encoded request, and building enters SILENCE after it. -/
theorem acceptanceRunsTheRequestPdu : Obligations.AcceptanceRunsTheRequestPdu :=
  fun c s hb h1 h2 =>
    ⟨_, exec_requestOf c s.regAddr s.value _, exec_commandOf_of_legal_slave hb h1 h2 c⟩

/-! ### Response PDUs as instructions -/

/-- Settles O26: the exception PDU responds for its function, and its verdict fails with the raw code. -/
theorem exceptionPduFailsWithItsCode : Obligations.ExceptionPduFailsWithItsCode := by
  intro c x s hs hc
  have hx : exec (exceptionPdu c x) s =
      .next (s.respond c fun _ => decException (exceptionOf c.code) x) := by
    cases c <;> rfl
  rw [hx, respond_of_code hs hc]
  rfl

/-- Settles O28: every response PDU responds for a function, and outside AWAIT a response is discarded. -/
theorem pduOutsideAwaitIsDiscarded : Obligations.PduOutsideAwaitIsDiscarded := by
  intro i s hp hs
  obtain ⟨d, v, hx, -⟩ := exec_eq_respond hp
  rw [hx, respond_outside_await hs]

/-! ### The evaluation of a complete response -/

/-- What is decoded is the first byte and the bytes between it and the CRC (41_frame_codec.md R132, R136). -/
theorem frameDecode_eq_ok {m : List Byte} {f : Frame} (h : frameDecode m = .ok f) :
    f = ⟨byteAt m 0, (m.take (m.length - 2)).drop 1⟩ := by
  unfold frameDecode at h
  split at h
  · cases h
  split at h
  · cases h
  · cases h
    rfl

theorem Buffer.first_length (b : Buffer) {n : Nat} (h : n ≤ 8) : (b.first n).length = n :=
  List.length_take_of_le h

/-- The PDU decoded from a receive buffer begins with its byte 1, and the address and the CRC are the other
three bytes of the frame (30_encoding.md R87). -/
theorem frameDecode_first_pdu {b : Buffer} {n : Nat} {f : Frame} (h5 : 5 ≤ n) (h8 : n ≤ 8)
    (h : frameDecode (b.first n) = .ok f) : ∃ data, f.pdu = b.get 1 :: data ∧ data.length + 4 = n := by
  obtain ⟨k, rfl⟩ := Nat.exists_eq_add_of_le' h5
  rw [frameDecode_eq_ok h, b.first_length h8]
  refine ⟨([b.b2, b.b3, b.b4, b.b5, b.b6, b.b7].take (k + 3)).take (k + 1), rfl, ?_⟩
  simp only [List.length_take, List.length_cons, List.length_nil]
  omega

section
variable {s : State}

theorem evaluate_of_error {e : FrameError} (h : frameDecode (s.rxBuf.first s.rxLen.toNat) = .error e) :
    evaluate s = .next (s.attemptFailed .crc) := by
  simp only [evaluate, h]

theorem evaluate_of_other_address {f : Frame} (h : frameDecode (s.rxBuf.first s.rxLen.toNat) = .ok f)
    (ha : f.address ≠ s.req.slave) : evaluate s = .next (s.fail .addressMismatch 0x00) := by
  simp only [evaluate, h, if_neg ha]

theorem evaluate_of_ok {f : Frame} (h : frameDecode (s.rxBuf.first s.rxLen.toNat) = .ok f)
    (ha : f.address = s.req.slave) : evaluate s = runPdu f.pdu s := by
  simp only [evaluate, h, if_pos ha]

/-- The PDU of a complete response is settled as `DecodeResponse` classifies it (42_pdu_codec.md R160). -/
theorem runPdu_of_complete {c : FunctionCode} {f : Frame} (hs : s.state = .await) (hc : s.req.fc = c.code)
    (hlen : expectedLen s.req.fc (s.rxBuf.get 1) = some s.rxLen.toNat)
    (h : frameDecode (s.rxBuf.first s.rxLen.toNat) = .ok f) :
    runPdu f.pdu s = .next (s.settle (decodeResponse f.pdu s.req)) := by
  rw [hc] at hlen
  obtain ⟨h5, h8⟩ := expectedLen_code_bounds hlen
  obtain ⟨data, hpdu, hdata⟩ := frameDecode_first_pdu h5 h8 h
  rw [expectedLen_eq, Option.some.injEq] at hlen
  rw [hpdu]
  exact runPdu_eq_settle hs hc (by omega)

end

/-- Settles O29: a decoding error, another address and a PDU to settle, one after the other. -/
theorem evaluationFollowsPduCodec : Obligations.EvaluationFollowsPduCodec := by
  intro c s hs hc _ hlen
  cases hd : frameDecode (s.rxBuf.toList.take s.rxLen.toNat) with
  | error e => exact evaluate_of_error hd
  | ok f =>
    dsimp only
    by_cases ha : f.address = s.req.slave
    · rw [evaluate_of_ok hd ha, runPdu_of_complete hs hc hlen hd, if_neg (not_not.2 ha)]
      cases decodeResponse f.pdu s.req with
      | bit b => cases b <;> rfl
      | _ => rfl
    · rw [evaluate_of_other_address hd ha, if_pos ha]

end Sys2Proof.Machine
end

section
/-! PROOFS. One tick (43_transaction.md R180 to R182): which instruction it runs, what the sequencer phase does in
each state (R189 to R207), and how a BUSY core leaves its state (R221, R225, R226). -/

namespace Sys2Proof.Machine

/-! ### The tick of an instruction -/

/-- The end of a tick, written out (43_transaction.md R180 to R182; log entries 1 to 3). -/
theorem endTick_eq {s : State} {t : TickInput} {rest : List TickInput} (h : s.inputs = t :: rest) (u : State) :
    s.endTick t u = { u with
      idle := if s.txValid && t.txReady || t.rx.isSome then 0x00000000 else satInc32 s.idle
      inputs := rest
      ticks := s.ticks + 1
      out := ⟨s.txValid, s.txData, s.state.done, hostReadData t.host s⟩ } := by
  rw [State.endTick, h]
  rfl

/-- An admitted tick that is no reset: host phase, sequencer phase, end (43_transaction.md R180). -/
theorem step_eq_phases {s : State} (hd : (s.inputAt 0).hostDefined = true) (hr : (s.inputAt 0).rst = false) :
    step s = andThen (hostPhase (s.inputAt 0).host s) fun s1 =>
      andThen (seqPhase (s.inputAt 0).rx (s.inputAt 0).txReady (s.inputAt 0).ioErr s.idle s1) fun s2 =>
        .next (s.endTick (s.inputAt 0) s2) := by
  rw [step_eq_definedTick hd, definedTick, if_neg (by simp [hr])]

/-- Settles O30: the host phase of the tick is the decoded instruction, and its end is `endTick`. -/
theorem stepRunsTheCommand : Obligations.StepRunsTheCommand := by
  intro s t rest v i hi hr hh hdec
  obtain rfl := inputAt_zero_of_cons hi
  have hd : (s.inputAt 0).hostDefined = true := (hostDefined_iff _).2 (.inr ⟨_, hh, rfl, rfl⟩)
  have hhost : hostPhase (s.inputAt 0).host s = exec i s := by
    rw [hh]
    exact hostWrite_cmd_of_decodeCode hdec s
  rw [step_eq_phases hd hr, hhost]
  simp only [endTick_eq hi, hh]
  rfl

/-- Settles O31: the host phase leaves the sequencer's part of the state, so its AWAIT tick stores the byte,
finds the frame complete and runs the PDU. -/
theorem stepRunsTheResponsePdu : Obligations.StepRunsTheResponsePdu := by
  intro s t rest b f i hi hr hd hio hrx hs hfull hframe ha hdec
  obtain rfl := inputAt_zero_of_cons hi
  obtain ⟨c, h1⟩ := hostPhase_of_busy hd (s := s) (by rw [hs]; rfl)
  have hrun : runPdu f.pdu ((s.withHostRegs c).storeRx b) = exec i ((s.withHostRegs c).storeRx b) := by
    obtain ⟨hp, hpdu⟩ := decodePdu_eq_ok.1 hdec
    rw [hpdu, runPdu_encode hp]
  have hseq : seqPhase (some b) (s.inputAt 0).txReady false s.idle (s.withHostRegs c) =
      exec i ((s.withHostRegs c).storeRx b) := by
    rw [seqPhase_of_await (s := s.withHostRegs c) hs]
    exact (if_pos hfull).trans ((evaluate_of_ok (s := (s.withHostRegs c).storeRx b) hframe ha).trans hrun)
  have hvalid : s.txValid = false := by simp [State.txValid, hs]
  refine ⟨_, h1, ?_⟩
  rw [step_eq_phases hd hr, h1, andThen_of_next, hrx, hio, hseq]
  simp only [endTick_eq hi, hrx, Option.isSome_some, Bool.or_true, if_true, hvalid,
    txData_of_not_sent (s := s) (by rw [hs]; decide), hs, SeqState.done]

/-! ### The line idle counter -/

theorem activity_iff (s : State) (t : TickInput) :
    s.activity t = true ↔ s.state = .sent ∧ t.txReady = true ∨ t.rx ≠ none := by
  simp [State.activity, State.transfers, txValid_iff, Option.isSome_iff_ne_none]

theorem nextIdle_of_activity {s : State} {t : TickInput} (h : s.activity t = true) :
    s.nextIdle t = 0x00000000 := if_pos h

theorem nextIdle_of_quiet {s : State} {t : TickInput} (h : ¬ s.activity t = true) :
    s.nextIdle t = satInc32 s.idle := if_neg h

/-- Settles O34: the end of the tick sets `idle`, by the tick's activity. -/
theorem idleCountsQuietTicks : Obligations.IdleCountsQuietTicks := by
  intro s u h hr
  obtain ⟨-, s1, s2, -, -, rfl⟩ := step_phases h hr
  rw [← activity_iff, State.endTick_idle]
  refine ⟨nextIdle_of_activity, fun hq => ?_⟩
  rw [nextIdle_of_quiet hq, satInc32_toNat]

/-! ### The sequencer phase, state by state -/

/-- Settles O35: while BUSY the error comes first, and outside BUSY the phase does nothing. -/
theorem ioErrorEndsTheTransaction : Obligations.IoErrorEndsTheTransaction :=
  fun _ _ _ _ => ⟨fun h => seqPhase_of_ioErr h, fun h => ⟨seqPhase_of_not_busy h, seqPhase_of_not_busy h⟩⟩

/-- While a byte arrives or the line has not been idle long enough, SILENCE waits (43_transaction.md R197). -/
theorem silenceTick_of_busy_line {rx : Option Byte} {idle0 : Word} {s : State}
    (h : rx ≠ none ∨ idle0.toNat < s.req.silence.toNat) : silenceTick rx idle0 s = s :=
  if_neg fun ⟨hrx, hle⟩ => h.elim (· hrx) fun hlt => Nat.not_le_of_lt hlt hle

/-- Settles O36: the two clauses are the branches of `silenceTick`. -/
theorem attemptStartsAfterSilence : Obligations.AttemptStartsAfterSilence := by
  intro rx r idle0 s hs
  rw [seqPhase_of_silence hs]
  exact ⟨fun h => congrArg Host.Outcome.next (if_pos h),
    fun h => congrArg Host.Outcome.next (silenceTick_of_busy_line h)⟩

/-- Settles O37: a tick that is not ready does nothing, and a transfer is the last one or an earlier one. -/
theorem transferAdvancesThenAwaits : Obligations.TransferAdvancesThenAwaits := by
  intro rx idle0 s hs
  rw [seqPhase_of_sent hs, seqPhase_of_sent hs]
  refine ⟨rfl, fun h => ?_, fun h => ?_⟩
  · obtain ⟨hadv, hidx⟩ := advanceTx_of_earlier h
    exact ⟨_, rfl, by rw [sentTick, if_pos rfl, hadv], by rw [sentTick, if_pos rfl, hadv]; exact hidx⟩
  · have h7 : s.txIdx = 7#4 := BitVec.eq_of_toNat_eq h
    rw [sentTick, if_pos rfl, advanceTx_of_last h, h7]
    rfl

/-- Settles O38: the byte is stored, and then the frame is complete, or the deadline is ahead, or it is
reached. -/
theorem awaitStoresThenChecksDeadline : Obligations.AwaitStoresThenChecksDeadline := by
  intro rx r idle0 s w hs hsome hnone
  have hw : s.receive rx = w := by
    cases rx with
    | none => exact (hnone rfl).symm
    | some b => exact (hsome b rfl).symm
  rw [seqPhase_of_await hs, awaitTick, hw, ← frameComplete_iff]
  refine ⟨fun hf => if_pos hf, fun hf ht => ?_, fun hf ht => ?_⟩ <;> refine (if_neg hf).trans ?_
  · exact congrArg Host.Outcome.next (if_neg (Nat.not_le_of_lt ht))
  · exact congrArg Host.Outcome.next (if_pos ht)

/-! ### Failed attempts and the end of a transaction -/

/-- Settles O39: the two clauses are the branches of `attemptFailed`. -/
theorem failedAttemptRetriesWithinBudget : Obligations.FailedAttemptRetriesWithinBudget := by
  intro cause s
  refine ⟨fun h => attemptFailed_of_budget h cause, fun h => ?_⟩
  rw [attemptFailed_of_exhausted h]
  cases cause <;> rfl

/-- A failed attempt that is followed by SILENCE had budget left (43_transaction.md R213, R221). -/
theorem budget_of_attemptFailed_silence {s : State} {cause : Cause}
    (h : (s.attemptFailed cause).state = .silence) : s.attempts.toNat < 1 + s.req.retry.toNat := by
  rcases attemptFailed_cases s cause with ⟨hlt, -⟩ | ⟨-, e⟩
  · exact hlt
  · rw [e] at h
    cases h

theorem receive_attempts (rx : Option Byte) (s : State) : (s.receive rx).attempts = s.attempts := by
  cases rx <;> rfl

theorem receive_req (rx : Option Byte) (s : State) : (s.receive rx).req = s.req := by
  cases rx <;> rfl

theorem advanceTx_busy {s : State} (hs : s.state = .sent) : s.advanceTx.state.busy = true := by
  unfold State.advanceTx
  split
  · rfl
  · exact (congrArg SeqState.busy hs :)

/-- The tick of a BUSY core is its sequencer phase and its end, whatever the host does to its own registers
meanwhile (43_transaction.md R186). -/
theorem step_of_busy {s x : State} (hb : s.state.busy = true) (hd : (s.inputAt 0).hostDefined = true)
    (hr : (s.inputAt 0).rst = false)
    (hx : seqPhase (s.inputAt 0).rx (s.inputAt 0).txReady (s.inputAt 0).ioErr s.idle s = .next x) :
    ∃ c, step s = .next (s.endTick (s.inputAt 0) (x.withHostRegs c)) := by
  obtain ⟨c, h1⟩ := hostPhase_of_busy hd hb
  exact ⟨c, step_of_phases hd hr h1 (seqPhase_withHostRegs c hx)⟩

/-- The sequencer state after the tick of a BUSY core is the one its sequencer phase leaves. -/
theorem step_state_of_busy {s u : State} (hb : s.state.busy = true) (hr : (s.inputAt 0).rst = false)
    (h : step s = .next u) :
    ∃ x, seqPhase (s.inputAt 0).rx (s.inputAt 0).txReady (s.inputAt 0).ioErr s.idle s = .next x ∧
      u.state = x.state := by
  obtain ⟨hd, -⟩ := step_phases h hr
  obtain ⟨x, hx⟩ := seqPhase_next (s.inputAt 0).rx (s.inputAt 0).txReady (s.inputAt 0).ioErr s.idle s
  obtain ⟨c, hstep⟩ := step_of_busy hb hd hr hx
  cases h.symm.trans hstep
  exact ⟨x, hx, rfl⟩

/-- Settles O54: of what a sequencer phase can do to a BUSY core, the rest stays BUSY. -/
theorem transactionEndsOnlyByOutcome : Obligations.TransactionEndsOnlyByOutcome := by
  intro s u h hb hu
  cases hr : (s.inputAt 0).rst with
  | true => exact .inl rfl
  | false =>
    obtain ⟨x, hx, e⟩ := step_state_of_busy hb hr h
    rw [e] at hu
    right
    rcases seqPhase_cases hx with ⟨-, hio, -⟩ | ⟨hnb, -⟩ | ⟨-, -, ⟨-, -, rfl⟩ | rfl⟩ |
      ⟨hs, -, ⟨-, rfl⟩ | ⟨-, rfl⟩⟩ | ⟨hs, -, ⟨hf, -⟩ | ⟨-, rfl⟩⟩
    · exact .inl hio
    · cases hb.symm.trans hnb
    · cases hu
    · cases hb.symm.trans hu
    · cases (advanceTx_busy hs).symm.trans hu
    · cases hb.symm.trans hu
    · exact .inr ⟨hs, .inl hf⟩
    · rcases deadlineTick_cases (s.receive (s.inputAt 0).rx) with ⟨ht, -⟩ | ⟨-, e⟩
      · rw [receive_req, receive_timer] at ht
        exact .inr ⟨hs, .inr ht⟩
      · rw [e, receive_eq] at hu
        cases hb.symm.trans hu

/-- Settles O55: of what an AWAIT tick can do, only a failed attempt enters SILENCE. -/
theorem onlyTimeoutAndChecksumRetry : Obligations.OnlyTimeoutAndChecksumRetry := by
  intro s u h hs hu
  cases hr : (s.inputAt 0).rst with
  | true =>
    rw [step_reset h hr] at hu
    cases hu
  | false =>
    obtain ⟨x, hx, e⟩ := step_state_of_busy (by rw [hs]; rfl) hr h
    rw [e] at hu
    have hw : (s.receive (s.inputAt 0).rx).state = .await := by rw [receive_eq]; exact hs
    have budget (hlt : (s.receive (s.inputAt 0).rx).attempts.toNat <
        1 + (s.receive (s.inputAt 0).rx).req.retry.toNat) : s.attempts.toNat < 1 + s.req.retry.toNat := by
      rwa [receive_attempts, receive_req] at hlt
    rcases seqPhase_cases hx with ⟨-, -, rfl⟩ | ⟨hnb, -⟩ | ⟨hs', -⟩ | ⟨hs', -⟩ | ⟨-, -, ⟨hf, hev⟩ | ⟨hf, rfl⟩⟩
    · cases hu
    · rw [hs] at hnb; cases hnb
    · cases hs.symm.trans hs'
    · cases hs.symm.trans hs'
    · rcases evaluate_cases hw with ⟨err, herr, hev'⟩ | hev' | ⟨v, -, hev'⟩ <;> cases hev.symm.trans hev'
      · exact ⟨budget (budget_of_attemptFailed_silence hu), .inr ⟨hf, err, herr⟩⟩
      · cases hu
      · have hdone := settle_done v (s.receive (s.inputAt 0).rx)
        rw [hu] at hdone
        cases hdone
    · rcases deadlineTick_cases (s.receive (s.inputAt 0).rx) with ⟨ht, e⟩ | ⟨-, e⟩ <;> rw [e] at hu
      · rw [receive_req, receive_timer] at ht
        exact ⟨budget (budget_of_attemptFailed_silence hu :), .inl ⟨hf, ht⟩⟩
      · cases hw.symm.trans hu

end Sys2Proof.Machine
end

section
/-! PROOFS. Runs of a BUSY core: the two hangs (70_reset_and_hazards.md R283, R286), and the deadline of a
response that never comes (43_transaction.md R205, R206, R213, R221). Each is an induction on the number of
ticks, with the tick's input shifted by `inputAt_succ`. -/

namespace Sys2Proof.Machine

/-- `step_of_busy` for a calm tick. -/
theorem step_of_busy_calm {s x : State} (hb : s.state.busy = true) (hc : (s.inputAt 0).calm = true)
    (hx : seqPhase (s.inputAt 0).rx (s.inputAt 0).txReady false s.idle s = .next x) :
    ∃ c, step s = .next (s.endTick (s.inputAt 0) (x.withHostRegs c)) := by
  obtain ⟨hr, hio, hd⟩ := (calm_iff _).1 hc
  exact step_of_busy hb hd hr (by rw [hio]; exact hx)

/-! ### A stalled transmitter -/

/-- Settles O56: a tick that is not ready leaves SENT as it is, so the byte is offered again. -/
theorem stalledTransmitterHangs : Obligations.StalledTransmitterHangs := by
  intro k
  induction k with
  | zero => exact fun s hs _ => ⟨s, rfl, hs, rfl, rfl, rfl, rfl⟩
  | succ k ih =>
    intro s hs hin
    obtain ⟨hc, hready⟩ := hin 0 (Nat.succ_pos _)
    obtain ⟨c, hstep⟩ := step_of_busy_calm (x := s) (by rw [hs]; rfl) hc
      (by rw [hready, seqPhase_of_sent hs]; rfl)
    have hin' (j : Nat) (hj : j < k) := hin (j + 1) (Nat.succ_lt_succ hj)
    simp only [← inputAt_succ hstep] at hin'
    obtain ⟨u, hrun, hu⟩ := ih _ (by exact hs) hin'
    exact ⟨u, (run_succ_of_step hstep k).trans hrun, hu⟩

/-! ### A line that never falls idle -/

theorem nextIdle_of_arrival {s : State} {t : TickInput} (h : t.rx ≠ none) : s.nextIdle t = 0x00000000 :=
  nextIdle_of_activity ((activity_iff s t).2 (.inr h))

theorem nextIdle_toNat_le (s : State) (t : TickInput) : (s.nextIdle t).toNat ≤ s.idle.toNat + 1 := by
  by_cases h : s.activity t = true
  · rw [nextIdle_of_activity h]
    exact Nat.zero_le _
  · rw [nextIdle_of_quiet h, satInc32_toNat]
    exact Nat.min_le_left _ _

/-- The tick `j` ticks from now has an arrival in it or at most `req_silence` ticks before it, or comes before
`idle` can reach `req_silence` (70_reset_and_hazards.md R286). -/
def State.LineBusyAt (s : State) (j : Nat) : Prop :=
  s.idle.toNat + j < s.req.silence.toNat ∨
    ∃ i, i ≤ j ∧ j ≤ i + s.req.silence.toNat ∧ (s.inputAt i).rx ≠ none

/-- A busy line gives this tick no reason to start an attempt. -/
theorem State.LineBusyAt.now {s : State} (h : s.LineBusyAt 0) :
    (s.inputAt 0).rx ≠ none ∨ s.idle.toNat < s.req.silence.toNat := by
  rcases h with hlt | ⟨i, hi, -, hrx⟩
  · exact .inr hlt
  · exact .inl (Nat.le_zero.1 hi ▸ hrx)

/-- A busy line stays busy as a tick passes: after an arrival `idle` counts from 0 again. -/
theorem State.LineBusyAt.of_step {s u : State} (h : step s = .next u)
    (hidle : u.idle = s.nextIdle (s.inputAt 0)) (hreq : u.req = s.req) {j : Nat} (hj : s.LineBusyAt (j + 1)) :
    u.LineBusyAt j := by
  unfold State.LineBusyAt
  rw [hidle, hreq]
  rcases hj with hlt | ⟨i, hij, hji, hrx⟩
  · have := nextIdle_toNat_le s (s.inputAt 0)
    exact .inl (by omega)
  · cases i with
    | zero =>
      rw [nextIdle_of_arrival hrx]
      exact .inl (by simp; omega)
    | succ i => exact .inr ⟨i, by omega, by omega, by rw [inputAt_succ h]; exact hrx⟩

/-- Settles O57: on a busy line a tick leaves SILENCE as it is, and the line busy. -/
theorem busyLineHangs : Obligations.BusyLineHangs := by
  intro k
  induction k with
  | zero => exact fun s hs _ => ⟨s, rfl, hs, rfl, rfl⟩
  | succ k ih =>
    intro s hs hin
    obtain ⟨hc, hline⟩ := hin 0 (Nat.succ_pos _)
    obtain ⟨c, hstep⟩ := step_of_busy_calm (x := s) (by rw [hs]; rfl) hc
      (by rw [seqPhase_of_silence hs, silenceTick_of_busy_line (State.LineBusyAt.now hline)])
    have hin' (j : Nat) (hj : j < k) :=
      (hin (j + 1) (Nat.succ_lt_succ hj)).imp_right (State.LineBusyAt.of_step hstep rfl rfl)
    simp only [← inputAt_succ hstep] at hin'
    obtain ⟨u, hrun, hu⟩ := ih _ (by exact hs) hin'
    exact ⟨u, (run_succ_of_step hstep k).trans hrun, hu⟩

/-! ### A response that never comes -/

/-- An AWAIT state that meets the invariant holds no complete response (30_encoding.md R95). -/
theorem State.Inv.frameComplete_eq_false {s : State} (hi : s.Inv) (hs : s.state = .await) :
    s.frameComplete = false := by
  rw [← Bool.not_eq_true, frameComplete_iff]
  rintro ⟨h2, hlen⟩
  obtain ⟨n, hn, hlt⟩ := hi.rx.await hs h2
  rw [hlen, Option.some.injEq] at hn
  omega

/-- Before the deadline `timer` does not wrap. -/
theorem timer_succ_toNat {timer timeout : Word} (h : timer.toNat < max timeout.toNat 1) :
    (timer + 1).toNat = timer.toNat + 1 := by
  have := timeout.isLt
  rw [BitVec.toNat_add]
  exact Nat.mod_eq_of_lt (by simp; omega)

/-- A calm AWAIT tick without a byte counts the deadline (43_transaction.md R205). -/
theorem step_of_await_silent {s : State} (hs : s.state = .await) (hf : s.frameComplete = false)
    (hc : (s.inputAt 0).calm = true) (hrx : (s.inputAt 0).rx = none) :
    ∃ c, step s = .next (s.endTick (s.inputAt 0) (s.deadlineTick.withHostRegs c)) :=
  step_of_await hs hc (by rw [hrx]; exact if_neg (by simp [State.receive, hf]))

/-- AWAIT lasts the next `n` ticks and no longer: then the next attempt waits in SILENCE if the budget allows
it, and the transaction fails with TIMEOUT otherwise (43_transaction.md R213, R221). -/
def State.TimesOutAfter (s : State) (n : Nat) : Prop :=
  (∀ j, j < n → ∃ u, Host.Core.run Sys2Proof.core j s = .next u ∧ u.state = .await) ∧
  ∃ u, Host.Core.run Sys2Proof.core n s = .next u ∧
    (s.attempts.toNat < 1 + s.req.retry.toNat → u.state = .silence ∧ u.res = s.res) ∧
    (s.attempts.toNat = 1 + s.req.retry.toNat →
      u.state = .failed ∧ u.res = ⟨.timeout, .none, false, .none, 0x00⟩ ∧ u.dataOut = 0) ∧
    u.attempts = s.attempts ∧ u.txBuf = s.txBuf ∧ u.rxBuf = s.rxBuf ∧ u.rxLen = s.rxLen

/-- Without a byte the deadline is counted down: by induction on the ticks before the one that reaches it. -/
theorem timesOutAfter_of_silent (n : Nat) : ∀ s : State, s.state = .await → s.frameComplete = false →
    s.timer.toNat + (n + 1) = max s.req.timeout.toNat 1 →
    (∀ j, j < n + 1 → (s.inputAt j).calm = true ∧ (s.inputAt j).rx = none) → s.TimesOutAfter (n + 1) := by
  induction n with
  | zero =>
    intro s hs hf ht hin
    obtain ⟨hc, hrx⟩ := hin 0 Nat.one_pos
    obtain ⟨c, hstep⟩ := step_of_await_silent hs hf hc hrx
    have htimer := timer_succ_toNat (timer := s.timer) (timeout := s.req.timeout) (by omega)
    have hreached : s.req.timeout ≤ s.timer + 1 := BitVec.le_def.2 (by omega)
    have hdead : s.deadlineTick = { s with timer := s.timer + 1 }.attemptFailed .deadline := if_pos hreached
    rw [hdead] at hstep
    refine ⟨fun j hj => ⟨s, by rw [Nat.lt_one_iff.1 hj]; rfl, hs⟩, _, run_succ_of_step hstep 0, ?_⟩
    rcases attemptFailed_cases { s with timer := s.timer + 1 } .deadline with ⟨hlt, e⟩ | ⟨hle, e⟩ <;> rw [e]
    · exact ⟨fun _ => ⟨rfl, rfl⟩, fun heq => absurd heq (Nat.ne_of_lt hlt), rfl, rfl, rfl, rfl⟩
    · exact ⟨fun hlt => absurd hlt (Nat.not_lt_of_le hle), fun _ => ⟨rfl, rfl, rfl⟩, rfl, rfl, rfl, rfl⟩
  | succ n ih =>
    intro s hs hf ht hin
    obtain ⟨hc, hrx⟩ := hin 0 (Nat.succ_pos _)
    obtain ⟨c, hstep⟩ := step_of_await_silent hs hf hc hrx
    have htimer := timer_succ_toNat (timer := s.timer) (timeout := s.req.timeout) (by omega)
    have hahead : ¬ s.req.timeout ≤ s.timer + 1 := fun hle => by
      rw [BitVec.le_def] at hle
      omega
    have hwait : s.deadlineTick = { s with timer := s.timer + 1 } := if_neg hahead
    rw [hwait] at hstep
    have hin' (j : Nat) (hj : j < n + 1) := hin (j + 1) (Nat.succ_lt_succ hj)
    simp only [← inputAt_succ hstep] at hin'
    obtain ⟨hbefore, u, hrun, hu⟩ := ih _ (by exact hs) (by exact hf)
      (by show (s.timer + 1).toNat + (n + 1) = max s.req.timeout.toNat 1; omega) hin'
    refine ⟨fun j hj => ?_, u, (run_succ_of_step hstep _).trans hrun, hu⟩
    cases j with
    | zero => exact ⟨s, rfl, hs⟩
    | succ j =>
      obtain ⟨w, hw, hawait⟩ := hbefore j (Nat.lt_of_succ_lt_succ hj)
      exact ⟨w, (run_succ_of_step hstep j).trans hw, hawait⟩

/-- Settles O59: from `timer` 0 the deadline is `max(req_timeout, 1)` ticks ahead. -/
theorem silentSlaveTimesOutExactly : Obligations.SilentSlaveTimesOutExactly := by
  intro s n hi hs ht hn hin
  obtain ⟨m, rfl⟩ : ∃ m, n = m + 1 := Nat.exists_eq_add_of_le' (hn ▸ Nat.le_max_right _ _)
  exact timesOutAfter_of_silent m s hs (hi.frameComplete_eq_false hs) (by rw [ht, ← hn]; simp) hin

end Sys2Proof.Machine
end
